-- ==== Sys2Proof/Word.lean ====
section
/-! DEFINITION. The word types of the block (00_scope.md R5, R6, R7; 30_encoding.md R38). -/

namespace Sys2Proof

/-- A Word: 32 bits, read as unsigned, bit 0 the least significant (R5 `WORD_WIDTH`, R6, R7). -/
abbrev Word := BitVec 32

/-- An operation code, `req_op[3:0]` (R5 `OP_WIDTH`, R42). -/
abbrev OpCode := BitVec 4

/-- A request written as one number of 132 bits (R38). -/
abbrev Bundle := BitVec 132

end Sys2Proof
end

