-- ==== Sys2Proof/Config.lean ====
section
/-! DEFINITION. What is fixed when the block is built (`MODE`, `LATENCY`), and the free values of the spec:
values it leaves open, constants without a body, so that no proof can know one. -/

namespace Sys2Proof

/-- The two values of `MODE`, the build-time selector of the mixing formula (R16). -/
inductive Mode where
  | reference
  | modified
  deriving DecidableEq, Repr

/-- Where a free value of the model stands (10_state.md R24, R25; 70_reset_and_hazards.md R78, R81). -/
inductive FreeSource where
  /-- `result` and `err` while `rsp_valid` = 0 (R25). -/
  | idleOutput
  /-- The datapath bits that enter stage 0 at an edge that accepts no request (R24). -/
  | emptyStage
  /-- The datapath bits of stage `k` after a reset edge (R24, R78). -/
  | resetStage (k : Nat)
  /-- The datapath bits of stage `k` before the first reset edge (R81). -/
  | powerUpStage (k : Nat)
  /-- The valid bit of stage `k` before the first reset edge (R81). -/
  | powerUpValid (k : Nat)
  /-- `result` and `err` on the response port before the first reset edge (R81). -/
  | powerUpOutput
  /-- `rsp_valid` before the first reset edge: it "may read 1" (R81). -/
  | powerUpRspValid
  deriving DecidableEq, Repr

namespace Config

/-- `MODE` where none is specified: `mix_modified` "is the default when no mode is otherwise specified" (R16). -/
def defaultMode : Mode := .modified

/-- `LATENCY` of the built instance: OPEN in the spec (R5, R88), so no proof can know its value.
DESIGN CHOICE (log 2): State.reset takes its number of stages from here. -/
opaque latency : Nat

/-- A free Word: what stands at `src` at the model's draw number `draw` (log 6, log 7, log 15). -/
opaque freeWord (src : FreeSource) (draw : Nat) : Word

/-- A free bit: what stands at `src` at the model's draw number `draw` (log 6, log 7, log 15). -/
opaque freeBit (src : FreeSource) (draw : Nat) : Bool

end Config

end Sys2Proof
end

