-- ==== Sys2Proof/Syntax.lean ====
section
/-! DEFINITION. The request port's signals, a request, and the operations: one constructor of `Instr` for each
row of spec/opcode_table.json, carrying the fields its format reads (30_encoding.md R38, R39, R42, R45). -/

namespace Sys2Proof

/-- The bits on a port or a field of it: where `driven` has a 1 the bit is a driven 0 or 1 given by `value`;
where it has a 0 the bit is undriven or unknown, and `value` says nothing there (70_reset_and_hazards.md R86). -/
structure Signal (w : Nat) where
  value  : BitVec w
  driven : BitVec w
  deriving DecidableEq, Repr

/-- A signal with every bit driven. -/
def Signal.of {w : Nat} (v : BitVec w) : Signal w := ⟨v, BitVec.allOnes w⟩

/-- Every bit carries a driven 0 or 1 (R86). -/
def Signal.isDriven {w : Nat} (x : Signal w) : Bool := x.driven == BitVec.allOnes w

/-- The port values of one request (R18, R38). -/
structure Request where
  op  : Signal 4
  in0 : Signal 32
  in1 : Signal 32
  in2 : Signal 32
  in3 : Signal 32
  deriving DecidableEq, Repr

/-- The operand formats (R39); `none` is that of a reserved code, which reads no operand field. -/
inductive Format where
  | u
  | r
  | b
  | q
  | none
  deriving DecidableEq, Repr

/-- The operations, with the operand fields each reads (R39, R42) as the ports carry them.
A field an operation does not read is no part of it (R41). -/
inductive Instr where
  /-- `op` 0x0: rotate `n` = in0 left by `c` = in1[4:0] (R51). -/
  | rotl (n : Signal 32) (c : Signal 5)
  /-- `op` 0x1: rotate `n` = in0 right by `c` = in1[4:0] (R52). -/
  | rotr (n : Signal 32) (c : Signal 5)
  /-- `op` 0x2: count leading zeros of `x` = in0 (R53). -/
  | clz (x : Signal 32)
  /-- `op` 0x3: population count of `x` = in0 (R54). -/
  | popcnt (x : Signal 32)
  /-- `op` 0x4: upper word of the product of `x` = in0 and `y` = in1 (R55). -/
  | mulhi (x y : Signal 32)
  /-- `op` 0x5: the mixer chosen by `MODE`, of `u` = in0 and `v` = in1 (R59). -/
  | mix (u v : Signal 32)
  /-- `op` 0x6: the reference mixer (R57). -/
  | mixref (u v : Signal 32)
  /-- `op` 0x7: the modified mixer (R58). -/
  | mixmod (u v : Signal 32)
  /-- `op` 0x8: the FNV-1a mixer (R60). -/
  | mix1a (u v : Signal 32)
  /-- `op` 0x9: left fold of the mixer over the Quad {x, y, z, w} = in0 to in3 (R62). -/
  | reduce4 (x y z w : Signal 32)
  /-- `op` 0b101x: reserved codes 0xA and 0xB; `low` is op[0] (R45). -/
  | reserved101x (low : BitVec 1)
  /-- `op` 0b11xx: reserved codes 0xC to 0xF; `low` is op[1:0] (R45). -/
  | reserved11xx (low : BitVec 2)
  deriving DecidableEq, Repr

/-- The format of an operation (R42). -/
def Instr.format : Instr → Format
  | .rotl _ _ => .r
  | .rotr _ _ => .r
  | .clz _ => .u
  | .popcnt _ => .u
  | .mulhi _ _ => .b
  | .mix _ _ => .b
  | .mixref _ _ => .b
  | .mixmod _ _ => .b
  | .mix1a _ _ => .b
  | .reduce4 _ _ _ _ => .q
  | .reserved101x _ => .none
  | .reserved11xx _ => .none

end Sys2Proof
end

