-- ==== Sys2Proof/WellFormed.lean ====
section
/-! DEFINITION. Well-formed operations: every operand field the operation reads has every bit driven
(70_reset_and_hazards.md R86). Nothing is asked of a field that is not read (30_encoding.md R41), and a reserved
code reads none. -/

namespace Sys2Proof

def Instr.wellFormed : Instr → Bool
  | .rotl n c => n.isDriven && c.isDriven
  | .rotr n c => n.isDriven && c.isDriven
  | .clz x => x.isDriven
  | .popcnt x => x.isDriven
  | .mulhi x y => x.isDriven && y.isDriven
  | .mix u v => u.isDriven && v.isDriven
  | .mixref u v => u.isDriven && v.isDriven
  | .mixmod u v => u.isDriven && v.isDriven
  | .mix1a u v => u.isDriven && v.isDriven
  | .reduce4 x y z w => x.isDriven && y.isDriven && z.isDriven && w.isDriven
  | .reserved101x _ => true
  | .reserved11xx _ => true

end Sys2Proof
end

