-- ==== Sys2Proof/Decode.lean ====
section
/-! DEFINITION. Decoding a request to its operation, by `req_op` alone (30_encoding.md R42, R43, R45, R47), the
132-bit bundle (R38), and the encoder. -/

namespace Sys2Proof

/-- The Word a signal carries, where every bit of it is driven (70_reset_and_hazards.md R86). -/
def Signal.read {w : Nat} (x : Signal w) : Option (BitVec w) :=
  if x.isDriven then some x.value else none

/-- `in1[4:0]`, the rotate amount's field (R39, R40). -/
def Signal.amount (x : Signal 32) : Signal 5 :=
  ⟨x.value.extractLsb' 0 5, x.driven.extractLsb' 0 5⟩

/-- A rotate amount on a whole port, with driven zeros in in1[31:5], which no operation reads (R40, R41; log 20). -/
def Signal.ofAmount (c : Signal 5) : Signal 32 :=
  ⟨(0#27 : BitVec 27) ++ c.value, BitVec.allOnes 27 ++ c.driven⟩

/-- One row of spec/opcode_table.json: a code matches the row where it agrees with `pattern` on `mask`'s bits. -/
structure OpRow where
  pattern : OpCode
  mask    : OpCode
  format  : Format
  deriving DecidableEq, Repr

/-- The rows of spec/opcode_table.json in its order (R42, R45). -/
def opRows : List OpRow :=
  [⟨0x0, 0xF, .r⟩, ⟨0x1, 0xF, .r⟩, ⟨0x2, 0xF, .u⟩, ⟨0x3, 0xF, .u⟩, ⟨0x4, 0xF, .b⟩, ⟨0x5, 0xF, .b⟩] ++
  [⟨0x6, 0xF, .b⟩, ⟨0x7, 0xF, .b⟩, ⟨0x8, 0xF, .b⟩, ⟨0x9, 0xF, .q⟩, ⟨0xA, 0xE, .none⟩, ⟨0xC, 0xC, .none⟩]

def OpRow.matchesCode (row : OpRow) (op : OpCode) : Bool := op &&& row.mask == row.pattern

/-- The code is one of the six reserved ones (R45). -/
def isReservedCode (op : OpCode) : Bool := decide (10 ≤ op.toNat)

/-- The operation a code selects, its operand fields forwarded as the ports carry them.
Which operation it is depends on `op` alone (R43); no field is looked at here. -/
def decodeOp (op : OpCode) (r : Request) : Instr :=
  match op.toNat with
  | 0 => .rotl r.in0 r.in1.amount
  | 1 => .rotr r.in0 r.in1.amount
  | 2 => .clz r.in0
  | 3 => .popcnt r.in0
  | 4 => .mulhi r.in0 r.in1
  | 5 => .mix r.in0 r.in1
  | 6 => .mixref r.in0 r.in1
  | 7 => .mixmod r.in0 r.in1
  | 8 => .mix1a r.in0 r.in1
  | 9 => .reduce4 r.in0 r.in1 r.in2 r.in3
  | 10 | 11 => .reserved101x (op.extractLsb' 0 1)
  | _ => .reserved11xx (op.extractLsb' 0 2)

/-- Why a request does not decode. There is one reason: all sixteen driven codes decode (R43). -/
inductive DecodeError where
  /-- A bit of `req_op` is undriven or unknown (R86). -/
  | undrivenOperationCode
  deriving DecidableEq, Repr

/-- Decoding is total: every request is one operation or is rejected by name (R43, R86). -/
def decode (r : Request) : Except DecodeError Instr :=
  match r.op.read with
  | some op => .ok (decodeOp op r)
  | none => .error .undrivenOperationCode

/-- The code of an operation (R42, R45). -/
def Instr.opcode : Instr → OpCode
  | .rotl _ _ => 0x0
  | .rotr _ _ => 0x1
  | .clz _ => 0x2
  | .popcnt _ => 0x3
  | .mulhi _ _ => 0x4
  | .mix _ _ => 0x5
  | .mixref _ _ => 0x6
  | .mixmod _ _ => 0x7
  | .mix1a _ _ => 0x8
  | .reduce4 _ _ _ _ => 0x9
  | .reserved101x low => 0b101#3 ++ low
  | .reserved11xx low => 0b11#2 ++ low

/-- The request that presents an operation; a field the operation does not read is 0x00000000 (R41, R48). -/
def Instr.toRequest (i : Instr) : Request :=
  let zero : Signal 32 := .of 0#32
  let op : Signal 4 := .of i.opcode
  match i with
  | .rotl n c => ⟨op, n, c.ofAmount, zero, zero⟩
  | .rotr n c => ⟨op, n, c.ofAmount, zero, zero⟩
  | .clz x => ⟨op, x, zero, zero, zero⟩
  | .popcnt x => ⟨op, x, zero, zero, zero⟩
  | .mulhi x y => ⟨op, x, y, zero, zero⟩
  | .mix u v => ⟨op, u, v, zero, zero⟩
  | .mixref u v => ⟨op, u, v, zero, zero⟩
  | .mixmod u v => ⟨op, u, v, zero, zero⟩
  | .mix1a u v => ⟨op, u, v, zero, zero⟩
  | .reduce4 x y z w => ⟨op, x, y, z, w⟩
  | .reserved101x _ => ⟨op, zero, zero, zero, zero⟩
  | .reserved11xx _ => ⟨op, zero, zero, zero, zero⟩

/-- The bundle of four operand words and a code: `op` at [131:128], then in3, in2, in1, in0 (R38). -/
def Bundle.pack (op : OpCode) (in0 in1 in2 in3 : Word) : Bundle := op ++ in3 ++ in2 ++ in1 ++ in0

/-- The values on the ports as a bundle (R38). -/
def Request.toBundle (r : Request) : Bundle :=
  Bundle.pack r.op.value r.in0.value r.in1.value r.in2.value r.in3.value

/-- The request a bundle stands for: bundle bit 32*K + i is inK[i], bit 128 + j is op[j] (R38). -/
def Request.ofBundle (b : Bundle) : Request :=
  ⟨.of (b.extractLsb' 128 4), .of (b.extractLsb' 0 32), .of (b.extractLsb' 32 32), .of (b.extractLsb' 64 32),
    .of (b.extractLsb' 96 32)⟩

/-- The bundle of a well-formed operation (R38). -/
def encode (i : Instr) : Bundle := i.toRequest.toBundle

/-- The operation of a bundle (R38, R43). -/
def decodeBundle (b : Bundle) : Except DecodeError Instr := decode (.ofBundle b)

/-- The request whose bits, numbered as spec/opcode_table.json numbers them, are those of `n`: bit 0 is op[0], and
the operand fields count on from bit 4, in0 first (DESIGN CHOICE, log 12). -/
def Request.ofTableNumber (n : Nat) : Request :=
  ⟨.of (BitVec.ofNat 4 n), .of (BitVec.ofNat 32 (n / 2 ^ 4)), .of (BitVec.ofNat 32 (n / 2 ^ 36)),
    .of (BitVec.ofNat 32 (n / 2 ^ 68)), .of (BitVec.ofNat 32 (n / 2 ^ 100))⟩

/-- What the decoder reads from an opcode-table word of `nbits` bits; every bit above them is 0 (log 12). -/
def decodeTableWord (nbits w : Nat) : Option Instr :=
  match decode (.ofTableNumber (w % 2 ^ nbits)) with
  | .ok i => some i
  | .error _ => none

end Sys2Proof
end

