-- ==== Sys2Proof/Machine/State.lean ====
section
/-! DEFINITION. The state of the block: its two build parameters, its pipeline, its ports (10_state.md). It has no
architectural state besides (R15, R17, R28). -/

namespace Sys2Proof.Machine

/-- Why a request has no response, or why its response is no value (60_exceptions.md, 93 I1 and I2). -/
inductive Fault where
  /-- "reserved operation code" (R64, R65): the outcome of a request with a reserved code at the transaction level.
  Raised by `transact` and `RspPort.outcome`, never by a step: the block answers such a request and goes on (R64).
  Safe: no value is read from the illegal response. -/
  | reservedOperationCode
  /-- A bit of `req_op` is undriven or unknown when the request is accepted (R86). Raised by `step` and `transact`.
  Safe: the model stops where the hardware goes on with no defined response. -/
  | undrivenOperationCode
  /-- A bit of an operand field the operation reads is undriven or unknown when the request is accepted (R86).
  Raised by the meanings and `transact`. Safe, as above. -/
  | undrivenOperand
  deriving DecidableEq, Repr

/-- Why an instruction has no meaning. -/
inductive Refusal where
  /-- Raised by an arm of `exec` whose instruction has no meaning yet; no arm raises it now. Safe. -/
  | notModelled (mnemonic : String)
  deriving DecidableEq, Repr

/-- What a request is answered with: `ok(result)` or `illegal` (00_scope.md R12, R20). -/
inductive Answer where
  | ok (result : Word)
  | illegal
  deriving DecidableEq, Repr

/-- The registers of one pipeline stage: a valid bit and datapath bits (R24). In this model the datapath bits of a
stage that holds a request are its finished response (DESIGN CHOICE, log 7). -/
structure Stage where
  valid  : Bool
  result : Word
  err    : Bool
  deriving DecidableEq, Repr

/-- The response port (R18). -/
structure RspPort where
  rspValid : Bool
  result   : Word
  err      : Bool
  deriving DecidableEq, Repr

/-- The values the host puts on the input ports for one edge (R18, R77). `rst` is a port only when `LATENCY` > 0;
otherwise it has no effect (log 13). -/
structure Inputs where
  rst      : Bool
  reqValid : Bool
  request  : Request
  deriving DecidableEq, Repr

/-- The state of one built instance. -/
structure State where
  /-- `MODE`, fixed when the block is built (R16). -/
  mode   : Mode
  /-- The pipeline, the stage next to the request port first; its length is `LATENCY` (R22, R24). -/
  stages : List Stage
  /-- The input port values of the edges to come, the next edge's first; past the end the host presents nothing
  (log 10). -/
  inputs : List Inputs
  /-- The response port as the host sampled it last (R21, R22). -/
  rsp    : RspPort
  /-- The model's own counter of draws of free values, not the spec's (log 8). -/
  draws  : Nat
  deriving DecidableEq, Repr

/-- `LATENCY` of the instance (R5, R88). -/
def State.latency (s : State) : Nat := s.stages.length

/-- `n` stages after a reset edge: valid bits 0, datapath bits unspecified (R27, R78). -/
def clearedStages (draw n : Nat) : List Stage :=
  (List.range n).map fun k =>
    ⟨false, Config.freeWord (.resetStage k) draw, Config.freeBit (.resetStage k) draw⟩

/-- The response port while `rsp_valid` = 0: `result` and `err` may hold any value (R25). -/
def idlePort (draw : Nat) : RspPort :=
  ⟨false, Config.freeWord .idleOutput draw, Config.freeBit .idleOutput draw⟩

/-- The instance built with `MODE` = `m` and `LATENCY` = `n`, right after reset (R27): valid bits 0, `rsp_valid` 0,
everything else unspecified. -/
def State.built (m : Mode) (n : Nat) : State where
  mode := m
  stages := clearedStages 0 n
  inputs := []
  rsp := idlePort 0
  draws := 1

/-- The machine right after reset (R27): `MODE` at its default (R16), `LATENCY` open (R88). -/
def State.reset : State := .built Config.defaultMode Config.latency

end Sys2Proof.Machine
end

