-- ==== Sys2Proof/Machine/Flags.lean ====
section
/-! DEFINITION. The status of a response. The block has no flags (10_state.md R26): `err` is an attribute of one
response, and no operation sets or reads a carry, overflow, zero, sign or sticky bit. -/

namespace Sys2Proof.Machine

/-- `err` of a response: 1 exactly when it is the illegal response (R20, R64, R65). -/
def Answer.errBit : Answer → Bool
  | .ok _ => false
  | .illegal => true

/-- `result` of a response: 0x00000000 in the illegal response (R20, R64). -/
def Answer.resultWord : Answer → Word
  | .ok w => w
  | .illegal => 0x00000000

end Sys2Proof.Machine
end

