-- ==== Sys2Proof/Machine/Operands.lean ====
section
/-! DEFINITION. Reading an operand field, and the arithmetic primitives and constants every operation is written
with (00_scope.md R8, R9, R10; 70_reset_and_hazards.md R86). -/

namespace Sys2Proof.Machine

/-- The outcome of executing one operation. -/
abbrev Result := Host.Outcome State Fault Refusal

/-- Read an operand field and go on with its value; an undriven bit in it is a fault (R86). -/
def withOperand {w : Nat} (x : Signal w) (k : BitVec w → Result) : Result :=
  match x.read with
  | some v => k v
  | none => .fault .undrivenOperand

/-- `mul32(a, b)`: the low 32 bits of the exact product (R8, R9, R56). -/
def mul32 (a b : Word) : Word := BitVec.ofNat 32 (a.toNat * b.toNat)

/-- `mul64(a, b)`: the exact product, as 64 bits (R8, R9). -/
def mul64 (a b : Word) : BitVec 64 := BitVec.ofNat 64 (a.toNat * b.toNat)

/-- `zext_32(k)` of a count (R8, R40, R53, R54). -/
def zext32 (k : Nat) : Word := BitVec.ofNat 32 k

/-- `FNV_PRIME` (R10). -/
def fnvPrime : Word := 0x01000193

/-- `FNV_OFFSET_BASIS` (R10). -/
def fnvOffsetBasis : Word := 0x811c9dc5

end Sys2Proof.Machine
end

