-- ==== Sys2Proof/Machine/Ops.lean ====
section
/-! DEFINITION. The operations on the state: one rising edge of `clk` (or, with `LATENCY` = 0, one presentation of
the ports) that accepts a request, accepts none, or is a reset edge (10_state.md R19 to R25; 70 R77 to R81). -/

namespace Sys2Proof.Machine

/-- The response port while the last stage (or, with no stage, the request's own response) is `x` (R21, R22, R25). -/
def RspPort.ofStage (draw : Nat) (x : Stage) : RspPort :=
  if x.valid then ⟨true, x.result, x.err⟩ else idlePort draw

/-- The response port during the cycle before the next edge, with `LATENCY` > 0: what the host samples there (R22).
With `LATENCY` = 0 the port shows the response of the request on the input ports (R21), and this says nothing. -/
def State.outputs (s : State) : RspPort :=
  match s.stages.getLast? with
  | some x => .ofStage s.draws x
  | none => idlePort s.draws

/-- One edge at which `entering` goes into the pipeline: the host samples what stands at its far end, and every
stage takes over the content of the one before it (R22, R23). With `LATENCY` = 0 there is no stage between, and
what enters is what the host samples (R21). -/
def State.clockEdge (entering : Stage) (s : State) : State :=
  { s with
    stages := (entering :: s.stages).dropLast
    rsp := .ofStage s.draws (s.stages.getLastD entering)
    draws := s.draws + 1 }

/-- An edge that accepts a request answered by `a` (R20, R22). -/
def State.respond (a : Answer) (s : State) : State := s.clockEdge ⟨true, a.resultWord, a.errBit⟩

/-- `respond_illegal()`: the one abnormal outcome, `err` <- 1 and `result` <- 0x00000000 (R64). It records nothing,
and there is no return from it: the block has no trap (R68, R69). -/
def State.respondIllegal (s : State) : State := s.respond .illegal

/-- An edge that accepts no request (R22, R25). -/
def State.idleEdge (s : State) : State :=
  s.clockEdge ⟨false, Config.freeWord .emptyStage s.draws, Config.freeBit .emptyStage s.draws⟩

/-- The block has a `rst` port exactly when `LATENCY` > 0 (R18, R77). -/
def State.hasReset (s : State) : Bool := !s.stages.isEmpty

/-- A rising edge with `rst` = 1: the response due at this edge is still sampled (R79, 90_conflicts.md C6), then
every valid bit is 0 and the datapath bits are unspecified (R78). `MODE` is not touched (R80). -/
def State.resetEdge (s : State) : State :=
  { s.idleEdge with stages := clearedStages s.draws s.stages.length }

/-- The port values of this edge are used up. -/
def State.dropInput (s : State) : State := { s with inputs := s.inputs.drop 1 }

/-- The instance before its first reset edge: valid bits, datapath bits and outputs, `rsp_valid` among them, are
unspecified (R81). Each is a free value; that form, and the response port recorded before any edge has sampled it, are
the model's (DESIGN CHOICE, log 15). R81 leaves the valid bits unspecified until an edge with `rst` = 1; that an edge
without one shifts in a determined stage here too, and accepts a request, is the model's as well (log 15). -/
def State.powerUp (m : Mode) (n : Nat) : State where
  mode := m
  stages := (List.range n).map fun k =>
    ⟨Config.freeBit (.powerUpValid k) 0, Config.freeWord (.powerUpStage k) 0, Config.freeBit (.powerUpStage k) 0⟩
  inputs := []
  rsp := ⟨Config.freeBit .powerUpRspValid 0, Config.freeWord .powerUpOutput 0, Config.freeBit .powerUpOutput 0⟩
  draws := 1

/-- The port values of an edge that presents request `r` with `rst` = 0. -/
def Inputs.present (r : Request) : Inputs := ⟨false, true, r⟩

/-- The block accepts a request at an edge where `req_valid` = 1 and `rst` = 0; `hasReset` says whether there is a
`rst` port (R19, R77). -/
def Inputs.accepts (hasReset : Bool) (p : Inputs) : Bool := p.reqValid && !(p.rst && hasReset)

end Sys2Proof.Machine
end

