-- ==== Sys2Proof/Machine/BitOps.lean ====
section
/-! DEFINITION. The BitOps family: ROTL, ROTR, CLZ, POPCNT, MULHI (40_bitops.md R51 to R55). -/

namespace Sys2Proof.Machine

/-- R51: `(n << s) | (n >> ((32 - s) mod 32))`; both shifts are in 0..31. -/
def rotl (n : Word) (s : BitVec 5) : Word := (n <<< s.toNat) ||| (n >>> ((32 - s.toNat) % 32))

/-- R52: `(n >> s) | (n << ((32 - s) mod 32))`. -/
def rotr (n : Word) (s : BitVec 5) : Word := (n >>> s.toNat) ||| (n <<< ((32 - s.toNat) % 32))

/-- How many of the bits `k-1` down to 0 of `x`, from the top, are 0 before the first 1. -/
def zerosFrom (x : Word) : Nat → Nat
  | 0 => 0
  | k + 1 => if x.getLsbD k then 0 else zerosFrom x k + 1

/-- R53: 32 for zero, else 31 minus the place of the highest 1. -/
def clz (x : Word) : Word := zext32 (zerosFrom x 32)

/-- The sum of the bits `k-1` down to 0 of `x`. -/
def onesBelow (x : Word) : Nat → Nat
  | 0 => 0
  | k + 1 => (x.getLsbD k).toNat + onesBelow x k

/-- R54: the sum of the 32 bits. -/
def popcnt (x : Word) : Word := zext32 (onesBelow x 32)

/-- R55: bits 63 to 32 of the exact product. -/
def mulhi (x y : Word) : Word := (mul64 x y).extractLsb' 32 32

/-- ROTL, R51. -/
def execRotl (n : Signal 32) (c : Signal 5) (s : State) : Result :=
  withOperand n fun n => withOperand c fun c => .next (s.respond (.ok (rotl n c)))

/-- ROTR, R52. -/
def execRotr (n : Signal 32) (c : Signal 5) (s : State) : Result :=
  withOperand n fun n => withOperand c fun c => .next (s.respond (.ok (rotr n c)))

/-- CLZ, R53. -/
def execClz (x : Signal 32) (s : State) : Result :=
  withOperand x fun x => .next (s.respond (.ok (clz x)))

/-- POPCNT, R54. -/
def execPopcnt (x : Signal 32) (s : State) : Result :=
  withOperand x fun x => .next (s.respond (.ok (popcnt x)))

/-- MULHI, R55. -/
def execMulhi (x y : Signal 32) (s : State) : Result :=
  withOperand x fun x => withOperand y fun y => .next (s.respond (.ok (mulhi x y)))

end Sys2Proof.Machine
end

