-- ==== Sys2Proof/Machine/Mixer.lean ====
section
/-! DEFINITION. The Mixer family: MIX, MIXREF, MIXMOD, MIX1A, REDUCE4 (41_mixer.md R56 to R62). Every product wraps
modulo 2^32 (R56). -/

namespace Sys2Proof.Machine

/-- R57: `mul32(u, FNV_PRIME) ^ v`. -/
def mixRef (u v : Word) : Word := mul32 u fnvPrime ^^^ v

/-- R58: `mul32(mul32(FNV_OFFSET_BASIS ^ u, FNV_PRIME) ^ v, FNV_PRIME)`, authoritative as written. -/
def mixMod (u v : Word) : Word := mul32 (mul32 (fnvOffsetBasis ^^^ u) fnvPrime ^^^ v) fnvPrime

/-- R59: the mixer `MODE` chooses. -/
def mixBy (m : Mode) (u v : Word) : Word :=
  match m with
  | .reference => mixRef u v
  | .modified => mixMod u v

/-- R60: `mul32(u ^ v, FNV_PRIME)`. -/
def mix1a (u v : Word) : Word := mul32 (u ^^^ v) fnvPrime

/-- R62: left fold of the mixer over {x, y, z, w}, in that order. -/
def reduce4 (m : Mode) (x y z w : Word) : Word := mixBy m (mixBy m (mixBy m x y) z) w

/-- MIX, R59. -/
def execMix (u v : Signal 32) (s : State) : Result :=
  withOperand u fun u => withOperand v fun v => .next (s.respond (.ok (mixBy s.mode u v)))

/-- MIXREF, R57: the same under both values of `MODE` (R61). -/
def execMixref (u v : Signal 32) (s : State) : Result :=
  withOperand u fun u => withOperand v fun v => .next (s.respond (.ok (mixRef u v)))

/-- MIXMOD, R58: the same under both values of `MODE` (R61). -/
def execMixmod (u v : Signal 32) (s : State) : Result :=
  withOperand u fun u => withOperand v fun v => .next (s.respond (.ok (mixMod u v)))

/-- MIX1A, R60. -/
def execMix1a (u v : Signal 32) (s : State) : Result :=
  withOperand u fun u => withOperand v fun v => .next (s.respond (.ok (mix1a u v)))

/-- REDUCE4, R62: always follows `MODE`. -/
def execReduce4 (x y z w : Signal 32) (s : State) : Result :=
  withOperand x fun x => withOperand y fun y => withOperand z fun z => withOperand w fun w =>
    .next (s.respond (.ok (reduce4 s.mode x y z w)))

end Sys2Proof.Machine
end

