-- ==== Sys2Proof/Machine/Reserved.lean ====
section
/-! DEFINITION. The reserved operation codes 0xA to 0xF (30_encoding.md R45, R46; 60_exceptions.md R64): the block
answers the illegal response and goes on. What a claim may read from that response is the fault
`reservedOperationCode` (`RspPort.outcome`, `transact`; log 4). -/

namespace Sys2Proof.Machine

/-- Codes 0xA and 0xB, R64; the code's own bits are not kept. -/
def execReserved101x (_low : BitVec 1) (s : State) : Result := .next s.respondIllegal

/-- Codes 0xC to 0xF, R64. -/
def execReserved11xx (_low : BitVec 2) (s : State) : Result := .next s.respondIllegal

end Sys2Proof.Machine
end

