-- ==== Sys2Proof/Machine/Dispatch.lean ====
section
/-! DEFINITION. One arm per operation: its meaning. -/

namespace Sys2Proof.Machine

/-- The edge at which the block accepts operation `i` in state `s` (10_state.md R19, R20). -/
def exec (i : Instr) (s : State) : Host.Outcome State Fault Refusal :=
  match i with
  | .rotl n c => Sys2Proof.Machine.execRotl n c s
  | .rotr n c => Sys2Proof.Machine.execRotr n c s
  | .clz x => Sys2Proof.Machine.execClz x s
  | .popcnt x => Sys2Proof.Machine.execPopcnt x s
  | .mulhi x y => Sys2Proof.Machine.execMulhi x y s
  | .mix u v => Sys2Proof.Machine.execMix u v s
  | .mixref u v => Sys2Proof.Machine.execMixref u v s
  | .mixmod u v => Sys2Proof.Machine.execMixmod u v s
  | .mix1a u v => Sys2Proof.Machine.execMix1a u v s
  | .reduce4 x y z w => Sys2Proof.Machine.execReduce4 x y z w s
  | .reserved101x low => Sys2Proof.Machine.execReserved101x low s
  | .reserved11xx low => Sys2Proof.Machine.execReserved11xx low s

end Sys2Proof.Machine
end

