-- ==== Sys2Proof/Machine/Accept.lean ====
section
/-! DEFINITION. What one edge does with the port values on it (10_state.md R19; 70_reset_and_hazards.md R77 to R79),
and a request placed on the port. -/

namespace Sys2Proof.Machine

/-- A request on the port at an edge that accepts it: decode and run it; an undriven bit in `req_op` is a fault
(R19, R20, R86). -/
def acceptRequest (r : Request) (s : State) : Result :=
  match decode r with
  | .ok i => exec i s
  | .error .undrivenOperationCode => .fault .undrivenOperationCode

/-- One edge with port values `p`: reset wins over a request (R19, R79); with no request the edge is idle. -/
def edgeWith (p : Inputs) (s : State) : Result :=
  if p.rst && s.hasReset then .next s.resetEdge
  else if p.reqValid then acceptRequest p.request s
  else .next s.idleEdge

/-- `s` with the port values `p` on the input ports at the next edge. -/
def State.place (p : Inputs) (s : State) : State := { s with inputs := p :: s.inputs.drop 1 }

/-- `s` with `ps` as the port values of the edges to come. -/
def State.withInputs (ps : List Inputs) (s : State) : State := { s with inputs := ps }

end Sys2Proof.Machine
end

