-- ==== Sys2Proof/Machine/Step.lean ====
section
/-! DEFINITION. The step: one rising edge of `clk`, or with `LATENCY` = 0 one presentation of the ports (log 1). -/

namespace Sys2Proof.Machine

/-- One edge, with the port values the host has placed for it; where it has placed none it presents no request
(log 10). -/
def step (s : State) : Host.Outcome State Fault Refusal :=
  match s.inputs with
  | p :: _ => edgeWith p s.dropInput
  | [] => .next s.idleEdge

/-- `s` with the request of an opcode-table word on the request port at the next edge (log 11, log 12). -/
def State.withFetchWord (s : State) (nbits w : Nat) : State :=
  s.place (.present (.ofTableNumber (w % 2 ^ nbits)))

end Sys2Proof.Machine
end

