-- ==== Sys2Proof/Machine/Transaction.lean ====
section
/-! DEFINITION. The transaction level (00_scope.md R12): the outcome of one request, written from the table of
30_encoding.md R42 and not from the decoder; what a host may conclude from the response port; and what it samples
along a run. -/

namespace Sys2Proof.Machine

/-- The outcome of a request: `ok(result)`, or a fault. A reserved code is the fault "reserved operation code", not a
value (R45, R64); an undriven bit in `req_op` or in a field that is read is a fault too (R86). -/
abbrev Transaction := Host.Outcome Word Fault Refusal

/-- The outcome of an operation of format R, U, B or Q on the fields it reads (R39, R86). -/
def onFields1 {v : Nat} (f : BitVec v → Word) (x : Signal v) : Transaction :=
  match x.read with
  | some a => .next (f a)
  | none => .fault .undrivenOperand

def onFields2 {v w : Nat} (f : BitVec v → BitVec w → Word) (x : Signal v) (y : Signal w) : Transaction :=
  match x.read, y.read with
  | some a, some b => .next (f a b)
  | _, _ => .fault .undrivenOperand

def onFields4 (f : Word → Word → Word → Word → Word) (x y z w : Signal 32) : Transaction :=
  match x.read, y.read, z.read, w.read with
  | some a, some b, some c, some d => .next (f a b c d)
  | _, _, _, _ => .fault .undrivenOperand

/-- `exec(MODE, op, in0, in1, in2, in3)` of R12 and R20. -/
def transact (m : Mode) (r : Request) : Transaction :=
  match r.op.read with
  | none => .fault .undrivenOperationCode
  | some op =>
    if op = 0x0 then onFields2 rotl r.in0 r.in1.amount
    else if op = 0x1 then onFields2 rotr r.in0 r.in1.amount
    else if op = 0x2 then onFields1 clz r.in0
    else if op = 0x3 then onFields1 popcnt r.in0
    else if op = 0x4 then onFields2 mulhi r.in0 r.in1
    else if op = 0x5 then onFields2 (mixBy m) r.in0 r.in1
    else if op = 0x6 then onFields2 mixRef r.in0 r.in1
    else if op = 0x7 then onFields2 mixMod r.in0 r.in1
    else if op = 0x8 then onFields2 mix1a r.in0 r.in1
    else if op = 0x9 then onFields4 (reduce4 m) r.in0 r.in1 r.in2 r.in3
    else .fault .reservedOperationCode

/-- What the host may conclude from the response port: nothing while `rsp_valid` = 0 (R25), the fault "reserved
operation code" where `err` = 1 (R64, R65), else the result. The `result` of an illegal response is never a value. -/
def RspPort.outcome (p : RspPort) : Option Transaction :=
  if p.rspValid then
    if p.err then some (.fault .reservedOperationCode) else some (.next p.result)
  else none

/-- `k` edges, stopping at the first fault. -/
def run : Nat → State → Result
  | 0, s => .next s
  | k + 1, s =>
    match step s with
    | .next t => run k t
    | .fault f => .fault f
    | .refused e => .refused e

/-- The response port as sampled at each of the next `k` edges, up to a fault. -/
def sampled : Nat → State → List RspPort
  | 0, _ => []
  | k + 1, s =>
    match step s with
    | .next t => t.rsp :: sampled k t
    | .fault _ => []
    | .refused _ => []

/-- The outcomes the host concludes over the next `k` edges, in the order it samples them (R23, R33). -/
def outcomes (k : Nat) (s : State) : List Transaction := (sampled k s).filterMap RspPort.outcome

/-- The requests, among those presented on the edges with port values `ps`, that get a response from an instance with
`LATENCY` = `n`, in the order presented: those the block accepts (R19) less those a reset edge discards, which is one
among the `n - 1` edges that follow (R79). With `n` = 0 there is no `rst` port. -/
def deliveredRequests (n : Nat) : List Inputs → List Request
  | [] => []
  | p :: ps =>
    if p.accepts (decide (0 < n)) && !(ps.take (n - 1)).any Inputs.rst then p.request :: deliveredRequests n ps
    else deliveredRequests n ps

end Sys2Proof.Machine
end

