-- ==== Sys2Proof/Machine/Assembler.lean ====
section
/-! DEFINITION. The assembler lines and pseudo-instructions of 30_encoding.md R48 and R49, and one line of a host
program. The names a line binds live in the host, not in the block. -/

namespace Sys2Proof.Machine

abbrev HostName := List Char

/-- The host's names and their Words, the newest first. -/
abbrev HostNames := List (HostName × Word)

/-- An operand: a 32-bit literal or a host-side name (R48). -/
inductive AsmOperand where
  | literal (w : Word)
  | name (n : HostName)
  deriving DecidableEq, Repr

/-- `name = MNEMONIC op0, op1, ...` (R48). -/
structure AsmLine where
  target   : Option HostName
  mnemonic : List Char
  operands : List AsmOperand
  deriving DecidableEq, Repr

/-- Why a line is no request. -/
inductive AsmError where
  | badLine
  | badOperand
  | unknownMnemonic
  | wrongOperandCount
  | unknownName
  /-- ROTLI or ROTRI with an amount that is no literal in 0..31 (R49). -/
  | amountOutOfRange
  deriving DecidableEq, Repr

/-- What a mnemonic stands for. -/
inductive AsmOp where
  /-- Code `op`, with as many operands as its format reads (R39, R48). -/
  | request (op : OpCode) (arity : Nat)
  /-- Code `op`, a rotate by a literal in 0..31 (R49, ROTLI and ROTRI). -/
  | rotateLiteral (op : OpCode)
  deriving DecidableEq, Repr

/-- The mnemonics of R42 and the pseudo-instructions of R49. `fnv` and `fnv_reduce` have no entry (R49). -/
def asmTable : List (String × AsmOp) :=
  [("ROTL", .request 0x0 2), ("ROTR", .request 0x1 2), ("CLZ", .request 0x2 1), ("POPCNT", .request 0x3 1)] ++
  [("MULHI", .request 0x4 2), ("MIX", .request 0x5 2), ("MIXREF", .request 0x6 2), ("MIXMOD", .request 0x7 2)] ++
  [("MIX1A", .request 0x8 2), ("REDUCE4", .request 0x9 4), ("FNV1", .request 0x6 2), ("FNV1A", .request 0x8 2)] ++
  [("ROTLI", .rotateLiteral 0x0), ("ROTRI", .rotateLiteral 0x1)]

def isBlank (c : Char) : Bool := c == ' ' || c == '\t'

def trimBlanks (l : List Char) : List Char := ((l.dropWhile isBlank).reverse.dropWhile isBlank).reverse

def splitAtChar (c : Char) : List Char → List (List Char)
  | [] => [[]]
  | x :: xs =>
    if x = c then [] :: splitAtChar c xs
    else match splitAtChar c xs with
      | [] => [[x]]
      | p :: ps => (x :: p) :: ps

/-- Mnemonics are accepted in any case (R48). -/
def upperChar (c : Char) : Char := if 'a' ≤ c ∧ c ≤ 'z' then Char.ofNat (c.toNat - 32) else c

def digitValue (base : Nat) (c : Char) : Option Nat :=
  let v := if '0' ≤ c ∧ c ≤ '9' then c.toNat - 48
    else if 'a' ≤ c ∧ c ≤ 'f' then c.toNat - 87
    else if 'A' ≤ c ∧ c ≤ 'F' then c.toNat - 55
    else base
  if v < base then some v else none

/-- The number the digits spell, after `acc`, most significant first. -/
def digitsValue (base : Nat) : Nat → List Char → Option Nat
  | acc, [] => some acc
  | acc, c :: cs =>
    match digitValue base c with
    | some v => digitsValue base (acc * base + v) cs
    | none => none

/-- `0x` followed by up to eight hex digits, or a decimal number in 0..4294967295 (R48). R48 gives no least number of
hex digits; that `0x` with none is no literal is the model's (DESIGN CHOICE, log 17). -/
def parseLiteral : List Char → Option Word
  | '0' :: 'x' :: ds =>
    if ds.length = 0 ∨ 8 < ds.length then none
    else match digitsValue 16 0 ds with
      | some v => some (BitVec.ofNat 32 v)
      | none => none
  | ds =>
    if ds.length = 0 then none
    else match digitsValue 10 0 ds with
      | some v => if v < 2 ^ 32 then some (BitVec.ofNat 32 v) else none
      | none => none

def isLetter (c : Char) : Bool := ('a' ≤ c && c ≤ 'z') || ('A' ≤ c && c ≤ 'Z') || c == '_'

/-- A host-side name: a letter or underscore, then letters, digits and underscores (DESIGN CHOICE, log 17). -/
def isHostName : List Char → Bool
  | [] => false
  | c :: cs => isLetter c && cs.all fun d => isLetter d || ('0' ≤ d && d ≤ '9')

def parseOperand (l : List Char) : Except AsmError AsmOperand :=
  match parseLiteral l with
  | some w => .ok (.literal w)
  | none => if isHostName l then .ok (.name l) else .error .badOperand

def parseOperands : List (List Char) → Except AsmError (List AsmOperand)
  | [] => .ok []
  | l :: ls =>
    match parseOperand (trimBlanks l), parseOperands ls with
    | .ok o, .ok os => .ok (o :: os)
    | .error e, _ => .error e
    | _, .error e => .error e

def parseBody (target : Option HostName) (body : List Char) : Except AsmError (Option AsmLine) :=
  let code := trimBlanks body
  let mnemonic := code.takeWhile fun c => !isBlank c
  let rest := trimBlanks (code.drop mnemonic.length)
  if mnemonic.length = 0 then .error .badLine
  else match parseOperands (if rest.length = 0 then [] else splitAtChar ',' rest) with
    | .ok os => .ok (some ⟨target, mnemonic.map upperChar, os⟩)
    | .error e => .error e

/-- One line of text; none where it holds only blanks and a comment (R48). -/
def parseLine (text : String) : Except AsmError (Option AsmLine) :=
  let code := trimBlanks (text.toList.takeWhile fun c => c != ';')
  if code.length = 0 then .ok none
  else match splitAtChar '=' code with
    | [body] => parseBody none body
    | [name, body] =>
      if isHostName (trimBlanks name) then parseBody (some (trimBlanks name)) body else .error .badLine
    | _ => .error .badLine

/-- The Word of an operand: the literal, or the newest Word the host holds under the name (R48). Names that differ
only in case are different names: R48 speaks of case for mnemonics only (DESIGN CHOICE, log 17). -/
def AsmOperand.word (env : HostNames) : AsmOperand → Except AsmError Word
  | .literal w => .ok w
  | .name n =>
    match env.lookup n with
    | some w => .ok w
    | none => .error .unknownName

def operandWords (env : HostNames) : List AsmOperand → Except AsmError (List Word)
  | [] => .ok []
  | o :: os =>
    match o.word env, operandWords env os with
    | .ok w, .ok ws => .ok (w :: ws)
    | .error e, _ => .error e
    | _, .error e => .error e

/-- The bundle of a code and its operand words; unread fields are 0x00000000 (R41, R48). -/
def packOperands (op : OpCode) (ws : List Word) : Bundle :=
  .pack op (ws.getD 0 0) (ws.getD 1 0) (ws.getD 2 0) (ws.getD 3 0)

/-- What a mnemonic in capitals stands for. -/
def mnemonicOp (m : List Char) : Option AsmOp := (asmTable.find? fun row => row.1.toList == m).map Prod.snd

/-- The request of an operation on the operands of a line. -/
def assembleAs (env : HostNames) (op : AsmOp) (os : List AsmOperand) : Except AsmError Bundle :=
  match op with
  | .request code arity =>
    match operandWords env os with
    | .ok ws => if ws.length = arity then .ok (packOperands code ws) else .error .wrongOperandCount
    | .error e => .error e
  | .rotateLiteral code =>
    match os with
    | [n, .literal k] =>
      if k.toNat < 32 then
        match n.word env with
        | .ok w => .ok (packOperands code [w, k])
        | .error e => .error e
      else .error .amountOutOfRange
    | [_, .name _] => .error .amountOutOfRange
    | _ => .error .wrongOperandCount

/-- A line expands to exactly one request (R48, R49). -/
def assemble (env : HostNames) (l : AsmLine) : Except AsmError Bundle :=
  match mnemonicOp l.mnemonic with
  | some op => assembleAs env op l.operands
  | none => .error .unknownMnemonic

/-- A line of text as the bundle of its request; none where it holds no request (R48). -/
def assembleText (env : HostNames) (text : String) : Except AsmError (Option Bundle) :=
  match parseLine text with
  | .error e => .error e
  | .ok none => .ok none
  | .ok (some l) =>
    match assemble env l with
    | .ok b => .ok (some b)
    | .error e => .error e

/-- One line of a host program: its request's outcome under `MODE` = `m`, and the host's names after it (R48, D26 of
92_eei_decisions.md). -/
def hostLine (m : Mode) (env : HostNames) (l : AsmLine) : Except AsmError (Transaction × HostNames) :=
  match assemble env l with
  | .error e => .error e
  | .ok b =>
    match transact m (.ofBundle b), l.target with
    | .next w, some n => .ok (.next w, (n, w) :: env)
    | o, _ => .ok (o, env)

end Sys2Proof.Machine
end

