-- ==== Sys2Proof/Safety.lean ====
section
/-! DEFINITION. What the host owes the block, in the terms claims use: defined operands (70_reset_and_hazards.md R86),
no reserved code (30_encoding.md R45), one `MODE` a session (60_exceptions.md R73). -/

namespace Sys2Proof

/-- `req_op` and every field the operation reads have every bit driven (R86). -/
def Request.isDefined (r : Request) : Bool :=
  match decode r with
  | .ok i => i.wellFormed
  | .error _ => false

/-- A defined request with a code the host may issue: "A host must not issue one" of the reserved codes (R45). -/
def Request.isLegal (r : Request) : Bool := r.isDefined && !isReservedCode r.op.value

namespace Machine

/-- The port values of an edge ask for nothing undefined: a request the block accepts is defined (R86). -/
def Inputs.isDefined (hasReset : Bool) (p : Inputs) : Bool := !p.accepts hasReset || p.request.isDefined

/-- ... and no reserved code is issued (R45). -/
def Inputs.isLegal (hasReset : Bool) (p : Inputs) : Bool := !p.accepts hasReset || p.request.isLegal

/-- The port values the host has placed never make the machine fault (R86). -/
def State.inputsDefined (s : State) : Bool := s.inputs.all (Inputs.isDefined s.hasReset)

/-- The port values the host has placed keep its whole contract (R45, R86): every response is a value. -/
def State.inputsLegal (s : State) : Bool := s.inputs.all (Inputs.isLegal s.hasReset)

/-- Every response in the pipeline or on the response port that has `err` = 1 is the illegal response, `result` =
0x00000000 (R20, R64). -/
abbrev State.errMeansIllegal (s : State) : Prop :=
  (∀ x ∈ s.stages, x.valid = true → x.err = true → x.result = 0x00000000) ∧
    (s.rsp.rspValid = true → s.rsp.err = true → s.rsp.result = 0x00000000)

/-- The instances of one hashing session; they share no state (R73). -/
abbrev Session := List State

/-- "Every instance used for one hashing session must be built with the same `MODE`" (R73, I11). -/
def Session.sameMode (l : Session) (m : Mode) : Bool := l.all fun s => s.mode == m

/-- One edge of instance `k` of a session; the others do not move (R73).
The spec does not say what becomes of a session whose instance faults on an undriven bit (R86). DESIGN CHOICE
(log 16): the session stays as it is, so that instance stays before the edge at which it faults and the others can go
on; the fault is seen by `step` of the instance and not here. The same where there is no instance `k`. -/
def Session.stepAt (l : Session) (k : Nat) : Session :=
  match l[k]? with
  | some s =>
    match step s with
    | .next t => l.set k t
    | .fault _ => l
    | .refused _ => l
  | none => l

end Machine

end Sys2Proof
end

