-- ==== Sys2Proof/Certificates/Slice0/Obligations.lean ====
section
/-! DEFINITION. The statements for the provers. Each says what a rule of spec/ says of the block. -/

namespace Sys2Proof.Machine

/-! ## Words used by several statements -/

/-- `exec` answers the next state that is the accepting edge whose response has `err` = `e` and `result` = `w`. -/
abbrev AnswersWith (i : Instr) (s : State) (w : Word) (e : Bool) : Prop :=
  exec i s = .next (s.clockEdge ⟨true, w, e⟩)

/-- The two requests carry the same on the fields that format `f` reads (30_encoding.md R39). -/
def agreeOn (f : Format) (r r' : Request) : Prop :=
  match f with
  | .u => r.in0 = r'.in0
  | .r => r.in0 = r'.in0 ∧ r.in1.amount = r'.in1.amount
  | .b => r.in0 = r'.in0 ∧ r.in1 = r'.in1
  | .q => r.in0 = r'.in0 ∧ r.in1 = r'.in1 ∧ r.in2 = r'.in2 ∧ r.in3 = r'.in3
  | .none => True

/-- What the response port shows for the outcome of a request: `result` with `err` = 0, or the illegal response (R20,
R64); a fault on an undriven bit shows nothing (R86). -/
def portFor : Transaction → Option RspPort
  | .next w => some ⟨true, w, false⟩
  | .fault .reservedOperationCode => some ⟨true, 0x00000000, true⟩
  | .fault .undrivenOperationCode => none
  | .fault .undrivenOperand => none
  | .refused _ => none

/-- The text assembles to the bundle, and the bundle decodes to the operation. -/
abbrev Spells (text : String) (b : Bundle) (i : Instr) : Prop :=
  assembleText [] text = .ok (some b) ∧ decodeBundle b = .ok i

/-- One mnemonic of the assembler: its code, how many operands its format reads, and the operation its operand words
stand for (30_encoding.md R39, R42, R48). -/
structure SpelledRow where
  mnemonic : String
  code     : OpCode
  operands : Nat
  op       : Word → Word → Word → Word → Instr

/-- The ten mnemonics of R42, written out, and the two pseudo-instructions of R49 that take any operands. -/
def spelledRows : List SpelledRow :=
  [⟨"ROTL", 0x0, 2, fun a b _ _ => .rotl (.of a) (.of (b.extractLsb' 0 5))⟩,
    ⟨"ROTR", 0x1, 2, fun a b _ _ => .rotr (.of a) (.of (b.extractLsb' 0 5))⟩,
    ⟨"CLZ", 0x2, 1, fun a _ _ _ => .clz (.of a)⟩,
    ⟨"POPCNT", 0x3, 1, fun a _ _ _ => .popcnt (.of a)⟩] ++
  [⟨"MULHI", 0x4, 2, fun a b _ _ => .mulhi (.of a) (.of b)⟩,
    ⟨"MIX", 0x5, 2, fun a b _ _ => .mix (.of a) (.of b)⟩,
    ⟨"MIXREF", 0x6, 2, fun a b _ _ => .mixref (.of a) (.of b)⟩,
    ⟨"MIXMOD", 0x7, 2, fun a b _ _ => .mixmod (.of a) (.of b)⟩] ++
  [⟨"MIX1A", 0x8, 2, fun a b _ _ => .mix1a (.of a) (.of b)⟩,
    ⟨"REDUCE4", 0x9, 4, fun a b c d => .reduce4 (.of a) (.of b) (.of c) (.of d)⟩,
    ⟨"FNV1", 0x6, 2, fun a b _ _ => .mixref (.of a) (.of b)⟩,
    ⟨"FNV1A", 0x8, 2, fun a b _ _ => .mix1a (.of a) (.of b)⟩]

/-- The operand stands for the Word: it is that literal, or a name under which the host holds it (R48). -/
def StandsFor (env : HostNames) (o : AsmOperand) (w : Word) : Prop :=
  o = .literal w ∨ ∃ n, o = .name n ∧ env.lookup n = some w

/-- An assembler line with all its operands. -/
abbrev asmLine (target : Option HostName) (mnemonic : String) (os : List AsmOperand) : AsmLine :=
  ⟨target, mnemonic.toList, os⟩

end Sys2Proof.Machine

open Sys2Proof Sys2Proof.Machine

/-! ## Encoding -/

/-- R50: the five encoding examples: each line assembles to its bundle, and the bundle decodes to the operation. -/
def Obligations.EncodingExamples : Prop :=
  Spells "ROTL 0x12345678, 4" 0x0_00000000_00000000_00000004_12345678 (.rotl (.of 0x12345678) (.of 4)) ∧
  Spells "CLZ 0x00000001" 0x2_00000000_00000000_00000000_00000001 (.clz (.of 0x00000001)) ∧
  Spells "MULHI 0xFFFFFFFF, 0xFFFFFFFF" 0x4_00000000_00000000_FFFFFFFF_FFFFFFFF
    (.mulhi (.of 0xFFFFFFFF) (.of 0xFFFFFFFF)) ∧
  Spells "MIXMOD 0, 0" 0x7_00000000_00000000_00000000_00000000 (.mixmod (.of 0) (.of 0)) ∧
  Spells "REDUCE4 1, 2, 3, 4" 0x9_00000004_00000003_00000002_00000001 (.reduce4 (.of 1) (.of 2) (.of 3) (.of 4))

/-- R42, R43, R45: every code matches exactly one row of the opcode table, and the decoder selects an operation of
that row's format. -/
def Obligations.TableRowsPartitionCodes : Prop :=
  ∀ op : OpCode, ∃ row ∈ opRows, row.matchesCode op = true ∧
    (∀ row' ∈ opRows, row'.matchesCode op = true → row' = row) ∧ ∀ r, (decodeOp op r).format = row.format

/-- R43: every request with a driven `req_op` decodes to exactly one operation, that of its code, and no operand
field has a say in which operation it is. -/
def Obligations.DecodeReadsOnlyOpCode : Prop :=
  ∀ r : Request, (r.op.isDriven = true → ∃ i, decode r = .ok i ∧ i.opcode = r.op.value ∧
    ∀ r' : Request, r'.op = r.op → ∃ i', decode r' = .ok i' ∧ i'.opcode = i.opcode) ∧
    (r.op.isDriven = false → decode r = .error .undrivenOperationCode)

/-- R38, R42: what the bundle of any four operand words and any code decodes to. -/
def Obligations.BundleDecodesByCode : Prop :=
  ∀ (op : OpCode) (a b c d : Word), decodeBundle (Bundle.pack op a b c d) = .ok (
    if op = 0x0 then .rotl (.of a) (.of (b.extractLsb' 0 5))
    else if op = 0x1 then .rotr (.of a) (.of (b.extractLsb' 0 5))
    else if op = 0x2 then .clz (.of a)
    else if op = 0x3 then .popcnt (.of a)
    else if op = 0x4 then .mulhi (.of a) (.of b)
    else if op = 0x5 then .mix (.of a) (.of b)
    else if op = 0x6 then .mixref (.of a) (.of b)
    else if op = 0x7 then .mixmod (.of a) (.of b)
    else if op = 0x8 then .mix1a (.of a) (.of b)
    else if op = 0x9 then .reduce4 (.of a) (.of b) (.of c) (.of d)
    else if op.extractLsb' 1 3 = 0b101#3 then .reserved101x (op.extractLsb' 0 1)
    else .reserved11xx (op.extractLsb' 0 2))

/-- R38, R42, R48: decoding the bundle of any well-formed operation gives it back, every operand at every value. -/
def Obligations.DecodeOfEncode : Prop :=
  ∀ i : Instr, i.wellFormed = true → decodeBundle (encode i) = .ok i

/-- R40: the rotate amount is in1[4:0], which is `val(in1) mod 32`. -/
def Obligations.RotateAmountIsLowFiveBits : Prop :=
  ∀ v : Word, (Signal.of v).amount = .of (v.extractLsb' 0 5) ∧ (v.extractLsb' 0 5).toNat = v.toNat % 32

/-- R41: two requests that differ only in fields the operation does not read decode alike and have the same
outcome. An undriven bit there makes no difference either. -/
def Obligations.UnreadFieldsHaveNoEffect : Prop :=
  ∀ r r' : Request, r.op = r'.op →
    (∀ row ∈ opRows, row.matchesCode r.op.value = true → agreeOn row.format r r') →
    decode r = decode r' ∧ (∀ m, transact m r = transact m r') ∧ (∀ s, acceptRequest r s = acceptRequest r' s)

/-! ## What each operation answers -/

/-- R51: ROTL reads in0 and in1[4:0] and answers `(in0 << s) | (in0 >> ((32 - s) mod 32))`, that is
`result[i] = in0[(i - s) mod 32]`, with `err` = 0. -/
def Obligations.RotlAnswersRotatedWord : Prop :=
  ∀ (s : State) (r : Request) (n : Word) (c : BitVec 5), r.op = .of 0x0 → r.in0 = .of n → r.in1.amount = .of c →
    decode r = .ok (.rotl (.of n) (.of c)) ∧
    ∃ w, AnswersWith (.rotl (.of n) (.of c)) s w false ∧
      w = ((n <<< c.toNat) ||| (n >>> ((32 - c.toNat) % 32))) ∧
      ∀ i < 32, w.getLsbD i = n.getLsbD ((i + 32 - c.toNat) % 32)

/-- R52: ROTR answers `(in0 >> s) | (in0 << ((32 - s) mod 32))`, that is `result[i] = in0[(i + s) mod 32]`. -/
def Obligations.RotrAnswersRotatedWord : Prop :=
  ∀ (s : State) (r : Request) (n : Word) (c : BitVec 5), r.op = .of 0x1 → r.in0 = .of n → r.in1.amount = .of c →
    decode r = .ok (.rotr (.of n) (.of c)) ∧
    ∃ w, AnswersWith (.rotr (.of n) (.of c)) s w false ∧
      w = ((n >>> c.toNat) ||| (n <<< ((32 - c.toNat) % 32))) ∧
      ∀ i < 32, w.getLsbD i = n.getLsbD ((i + c.toNat) % 32)

/-- R53: CLZ answers 32 for zero, else 31 - h where h is the place of the highest 1. -/
def Obligations.ClzAnswersLeadingZeros : Prop :=
  ∀ (s : State) (r : Request) (x : Word), r.op = .of 0x2 → r.in0 = .of x →
    decode r = .ok (.clz (.of x)) ∧
    ∃ w, AnswersWith (.clz (.of x)) s w false ∧
      (x = 0x00000000 → w = 32) ∧
      ∀ h < 32, x.getLsbD h = true → (∀ j < 32, h < j → x.getLsbD j = false) → w = BitVec.ofNat 32 (31 - h)

/-- R54: POPCNT answers the sum of the 32 bits, zero-extended. -/
def Obligations.PopcntAnswersSumOfBits : Prop :=
  ∀ (s : State) (r : Request) (x : Word), r.op = .of 0x3 → r.in0 = .of x →
    decode r = .ok (.popcnt (.of x)) ∧
    ∃ w, AnswersWith (.popcnt (.of x)) s w false ∧
      w.toNat = ((List.range 32).map fun i => (x.getLsbD i).toNat).sum ∧ w.toNat ≤ 32

/-- R55: MULHI answers floor(val(in0) * val(in1) / 2^32). -/
def Obligations.MulhiAnswersUpperProduct : Prop :=
  ∀ (s : State) (r : Request) (x y : Word), r.op = .of 0x4 → r.in0 = .of x → r.in1 = .of y →
    decode r = .ok (.mulhi (.of x) (.of y)) ∧
    ∃ w, AnswersWith (.mulhi (.of x) (.of y)) s w false ∧ w.toNat = x.toNat * y.toNat / 2 ^ 32

/-- R57: MIXREF answers `mul32(u, FNV_PRIME) ^ v` under both values of MODE. -/
def Obligations.MixrefAnswersMultiplyThenXor : Prop :=
  ∀ (s : State) (r : Request) (u v : Word), r.op = .of 0x6 → r.in0 = .of u → r.in1 = .of v →
    decode r = .ok (.mixref (.of u) (.of v)) ∧
    ∃ w, AnswersWith (.mixref (.of u) (.of v)) s w false ∧
      w = (BitVec.ofNat 32 (u.toNat * 16777619) ^^^ v)

/-- R58: MIXMOD answers `mul32(mul32(FNV_OFFSET_BASIS ^ u, FNV_PRIME) ^ v, FNV_PRIME)` under both values of MODE. -/
def Obligations.MixmodAnswersModifiedFormula : Prop :=
  ∀ (s : State) (r : Request) (u v : Word), r.op = .of 0x7 → r.in0 = .of u → r.in1 = .of v →
    decode r = .ok (.mixmod (.of u) (.of v)) ∧
    ∃ w, AnswersWith (.mixmod (.of u) (.of v)) s w false ∧
      w = ((2166136261#32 ^^^ u) * 16777619#32 ^^^ v) * 16777619#32

/-- R59: MIX answers the MIXREF formula when MODE = REFERENCE and the MIXMOD formula when MODE = MODIFIED. -/
def Obligations.MixAnswersFormulaOfMode : Prop :=
  ∀ (s : State) (r : Request) (u v : Word), r.op = .of 0x5 → r.in0 = .of u → r.in1 = .of v →
    decode r = .ok (.mix (.of u) (.of v)) ∧
    (s.mode = .reference → AnswersWith (.mix (.of u) (.of v)) s (u * 16777619#32 ^^^ v) false) ∧
    (s.mode = .modified →
      AnswersWith (.mix (.of u) (.of v)) s (((2166136261#32 ^^^ u) * 16777619#32 ^^^ v) * 16777619#32) false)

/-- R60: MIX1A answers `mul32(u ^ v, FNV_PRIME)`, and never reads MODE. -/
def Obligations.Mix1aAnswersXorThenMultiply : Prop :=
  ∀ (s : State) (r : Request) (u v : Word), r.op = .of 0x8 → r.in0 = .of u → r.in1 = .of v →
    decode r = .ok (.mix1a (.of u) (.of v)) ∧
    AnswersWith (.mix1a (.of u) (.of v)) s ((u ^^^ v) * 16777619#32) false

/-- R62, L11: REDUCE4 answers what three chained MIX requests answer, in the order x, y, z, w. -/
def Obligations.Reduce4AnswersChainedMix : Prop :=
  ∀ (s : State) (r : Request) (x y z w : Word),
    r.op = .of 0x9 → r.in0 = .of x → r.in1 = .of y → r.in2 = .of z → r.in3 = .of w →
    decode r = .ok (.reduce4 (.of x) (.of y) (.of z) (.of w)) ∧
    ∃ t1 t2 t3, AnswersWith (.mix (.of x) (.of y)) s t1 false ∧ AnswersWith (.mix (.of t1) (.of z)) s t2 false ∧
      AnswersWith (.mix (.of t2) (.of w)) s t3 false ∧
      AnswersWith (.reduce4 (.of x) (.of y) (.of z) (.of w)) s t3 false

/-- R20, R45, R64: a reserved code, whatever the operand fields carry, gets the illegal response `err` = 1,
`result` = 0 and does not stop the block: `exec` answers the next state of any other accepting edge. The outcome of the
request, `transact`, is the fault "reserved operation code". That the fault stands there and not in the step is the
model's choice (log 4). -/
def Obligations.ReservedCodesAnswerIllegal : Prop :=
  ∀ (s : State) (r : Request) (op : OpCode), 10 ≤ op.toNat → r.op = .of op →
    (∃ i, decode r = .ok i ∧ (i = .reserved101x (op.extractLsb' 0 1) ∨ i = .reserved11xx (op.extractLsb' 0 2)) ∧
      AnswersWith i s 0x00000000 true) ∧
    (∀ m, transact m r = .fault .reservedOperationCode) ∧ r.isLegal = false

/-- R64: both reserved rows complete with the illegal response, whatever the code's own free bits and the state. That
`exec` takes this next state, and the fault R45 asks of a model is the outcome of the request instead, is the model's
choice (log 4). -/
def Obligations.ReservedRowsComplete : Prop :=
  ∀ (s : State) (a : BitVec 1) (b : BitVec 2),
    AnswersWith (.reserved101x a) s 0x00000000 true ∧ AnswersWith (.reserved11xx b) s 0x00000000 true

/-- R63: every operation of R42 answers every combination of operand values with `err` = 0 and the result of its
rule, the one the table of R42 gives. -/
def Obligations.DrivenOperationsAnswerWithoutError : Prop :=
  ∀ (i : Instr) (s : State), i.wellFormed = true → i.format ≠ .none →
    ∃ w, AnswersWith i s w false ∧ transact s.mode i.toRequest = .next w

/-- R86: an undriven bit in `req_op` or in a field the operation reads is a fault; with those driven, whatever the
other fields carry, the request is answered. That the fault comes at the edge that accepts the request is the model's
choice (log 5). -/
def Obligations.UndrivenFieldsFault : Prop :=
  (∀ (i : Instr) (s : State), i.wellFormed = false → exec i s = .fault .undrivenOperand) ∧
  (∀ (r : Request) (s : State), r.op.isDriven = false → acceptRequest r s = .fault .undrivenOperationCode) ∧
  (∀ (r : Request) (s : State), r.isDefined = true → ∃ t, acceptRequest r s = .next t)

/-- R20, R64, R86: what the block does with a request it accepts is the outcome of the table of R42: the result with
`err` = 0, or the illegal response, or a fault on an undriven field. That a reserved code's fault is the outcome while
the block goes on (log 4), and that an undriven bit faults at the accepting edge (log 5), are the model's choices. -/
def Obligations.ResponseIsTransactionOutcome : Prop :=
  ∀ (r : Request) (s : State), acceptRequest r s =
    match transact s.mode r with
    | .next w => .next (s.clockEdge ⟨true, w, false⟩)
    | .fault .reservedOperationCode => .next (s.clockEdge ⟨true, 0x00000000, true⟩)
    | .fault f => .fault f
    | .refused e => .refused e

/-! ## Laws of the operations -/

/-- L1: the rotates undo each other. -/
def Obligations.RotatesInvertEachOther : Prop :=
  ∀ (n : Word) (c : BitVec 5), rotl (rotr n c) c = n ∧ rotr (rotl n c) c = n

/-- L3: a left rotate is the right rotate by the complementary amount, and L2's full circle. -/
def Obligations.RotlIsComplementaryRotr : Prop :=
  ∀ (n : Word) (c : BitVec 5), rotl n c = rotr n (BitVec.ofNat 5 ((32 - c.toNat) % 32)) ∧
    rotl n 0 = n ∧ rotl 0x00000000 c = 0x00000000 ∧ rotl 0xFFFFFFFF c = 0xFFFFFFFF

/-- L4: rotating does not change the population count. -/
def Obligations.PopcntInvariantUnderRotation : Prop :=
  ∀ (n : Word) (c : BitVec 5), popcnt (rotl n c) = popcnt n

/-- L5: CLZ is 32 exactly on zero, and otherwise brackets the value between two powers of two. -/
def Obligations.ClzBracketsValue : Prop :=
  ∀ n : Word, (clz n = 32 ↔ n = 0) ∧
    (n ≠ 0 → (clz n).toNat ≤ 31 ∧ 2 ^ (31 - (clz n).toNat) ≤ n.toNat ∧ n.toNat < 2 ^ (32 - (clz n).toNat))

/-- L6: rotating left by the leading-zero count normalises a Word. -/
def Obligations.RotlByClzNormalises : Prop :=
  ∀ n : Word, rotl n ((clz n).extractLsb' 0 5) = (if n = 0 then 0 else n <<< (clz n).toNat) ∧
    (n ≠ 0 → (rotl n ((clz n).extractLsb' 0 5)).getLsbD 31 = true)

/-- L7 and R55's corner cases. -/
def Obligations.MulhiBoundsAndSymmetry : Prop :=
  ∀ x y : Word, mulhi x y = mulhi y x ∧ (mulhi x y).toNat ≤ 0xFFFFFFFE ∧ mulhi x 1 = 0 ∧
    (mulhi x y = 0 ↔ x.toNat * y.toNat < 2 ^ 32)

/-- L10: for a fixed `v`, MIXREF is a bijection of `u`, because FNV_PRIME is odd. -/
def Obligations.MixrefBijectiveInFirstOperand : Prop :=
  ∀ v : Word, Function.Bijective fun u => mixRef u v

/-- L8, L9: how the mixers stand to each other. -/
def Obligations.MixerRelations : Prop :=
  ∀ u v : Word, mix1a u v = mix1a v u ∧ mix1a u u = 0 ∧ mix1a u v = mixRef (u ^^^ v) 0 ∧
    mixMod u v = mul32 (mixRef (fnvOffsetBasis ^^^ u) v) fnvPrime

/-! ## MODE -/

/-- R44: MIX and each step of REDUCE4 take the formula of MODE; no other code depends on MODE. -/
def Obligations.OnlyMixAndReduce4ReadMode : Prop :=
  (∀ (m m' : Mode) (r : Request), r.op.value ≠ 0x5 → r.op.value ≠ 0x9 → transact m r = transact m' r) ∧
  (∀ (i : Instr) (s t : State) (m : Mode), i.opcode ≠ 0x5 → i.opcode ≠ 0x9 → exec i s = .next t →
    exec i { s with mode := m } = .next { t with mode := m }) ∧
  (∀ u v : Word, mixBy .reference u v = mixRef u v ∧ mixBy .modified u v = mixMod u v) ∧
  (∀ (m : Mode) (x y z w : Word), reduce4 m x y z w = mixBy m (mixBy m (mixBy m x y) z) w)

/-- R61: MIXREF and MIXMOD differ on (0, 0), and so do MIX and REDUCE4 under the two values of MODE. -/
def Obligations.ModesAreIsolated : Prop :=
  mixRef 0 0 = 0x00000000 ∧ mixMod 0 0 = 0x117697CD ∧ mixBy .reference 0 0 ≠ mixBy .modified 0 0 ∧
    reduce4 .reference 0 0 0 0 ≠ reduce4 .modified 0 0 0 0

/-- R5, R16, R80: no run of any length, with or without resets in it, changes MODE or LATENCY. That MODE is a field of
the state (log 3) and LATENCY the number of its stages (log 2) are the model's choices. -/
def Obligations.RunsKeepBuildParameters : Prop :=
  ∀ (k : Nat) (s t : State), run k s = .next t → t.mode = s.mode ∧ t.latency = s.latency

/-! ## The step and the pipeline -/

/-- R19, R20, R86: at an edge where `req_valid` = 1 and there is no reset, the step accepts the request on the port,
on the state whose port values for this edge are used up: it is `exec` of the decoded operation, and where a bit of
`req_op` is undriven it is a fault. That the fault comes at this edge is the model's choice (log 5). -/
def Obligations.StepRunsDecodedOperation : Prop :=
  ∀ (s : State) (p : Inputs) (ps : List Inputs), s.inputs = p :: ps → p.accepts s.hasReset = true →
    s.dropInput = { s with inputs := ps } ∧ step s = acceptRequest p.request s.dropInput ∧
    (∀ i, decode p.request = .ok i → step s = exec i s.dropInput) ∧
    (p.request.op.isDriven = false → step s = .fault .undrivenOperationCode)

/-- R19, R25, R79: the other edges. A reset edge, an edge that presents no request, and an edge for which the host
has placed nothing (log 10: the model's choice) accept no request and are never a fault. -/
def Obligations.StepWithoutRequest : Prop :=
  ∀ s : State,
    (∀ p ps, s.inputs = p :: ps → p.rst = true → s.hasReset = true → step s = .next s.dropInput.resetEdge) ∧
    (∀ p ps, s.inputs = p :: ps → (p.rst && s.hasReset) = false → p.reqValid = false →
      step s = .next s.dropInput.idleEdge) ∧
    (s.inputs = [] → step s = .next s.idleEdge)

/-- The frame of every operation (R15, R22, R23, R26): MODE, LATENCY and the port values to come are unchanged, every
response in flight moves on, unchanged, and the one due is sampled. That a stage takes over every bit of the one before
it, an empty stage's bits too, is the model's choice (log 7): R24 leaves the datapath bits to the implementation. -/
def Obligations.AcceptingEdgeFrame : Prop :=
  ∀ (i : Instr) (s t : State), exec i s = .next t →
    t.mode = s.mode ∧ t.inputs = s.inputs ∧ t.latency = s.latency ∧
    (∀ k, k + 1 < s.latency → t.stages[k + 1]? = s.stages[k]?) ∧
    (∀ x, s.stages.getLast? = some x → x.valid = true → t.rsp = ⟨true, x.result, x.err⟩) ∧
    (∀ x, s.stages.getLast? = some x → x.valid = false → t.rsp.rspValid = false)

/-- R22, R79: with LATENCY > 0, what the host samples at an edge is what the response port showed in the cycle that
ends there, whatever is on the input ports at that edge, a reset included. -/
def Obligations.EdgeSamplesOutputsOfCycle : Prop :=
  ∀ s t : State, 0 < s.latency → step s = .next t → t.rsp = s.outputs

/-- R21: with LATENCY = 0, `rsp_valid` = `req_valid`, and while it is 1 `result` and `err` are the response of the
request on the port. -/
def Obligations.CombinationalResponse : Prop :=
  ∀ (s t : State) (p : Inputs) (ps : List Inputs), s.latency = 0 → s.inputs = p :: ps → step s = .next t →
    t.rsp.rspValid = p.reqValid ∧ (p.reqValid = true → some t.rsp = portFor (transact s.mode p.request))

/-- R22, R88: a defined request accepted at one edge, with no reset at the LATENCY - 1 edges that follow, is answered
by its own outcome at the edge LATENCY later, for every LATENCY, from every state. Where no request was accepted at
that edge, or a reset intervened, `rsp_valid` = 0 there. The model's choices in it: states that no reset edge preceded
answer like any other (log 15; R81 leaves `rsp_valid` open there), a reserved code is answered while its outcome is a
fault (log 4), and past the end of the placed port values the host presents nothing (log 10). -/
def Obligations.ResponseAppearsAfterLatency : Prop :=
  ∀ (s : State) (p : Inputs) (ps : List Inputs), s.inputs = p :: ps →
    (p.accepts s.hasReset = true → p.request.isDefined = true → (∀ q ∈ ps.take (s.latency - 1), q.rst = false) →
      (∀ q ∈ ps.take s.latency, q.isDefined s.hasReset = true) →
      ∃ t, run (s.latency + 1) s = .next t ∧ some t.rsp = portFor (transact s.mode p.request)) ∧
    (∀ t, (p.accepts s.hasReset = false ∨ ∃ q ∈ ps.take (s.latency - 1), q.rst = true) →
      run (s.latency + 1) s = .next t → t.rsp.rspValid = false)

/-- R22, R23, R33, R79: the whole block against the transaction level. From the state after reset, whatever the host
presents on a list of edges (resets among them), once the pipeline has drained it has sampled exactly the outcomes of
the requests accepted and not discarded, one each, in the order presented. The model's choices in it: a reserved request
counts as a fault outcome while the run goes on (log 4), and while the pipeline drains the host presents nothing
(log 10). -/
def Obligations.ResponsesRefineTransactions : Prop :=
  ∀ (m : Mode) (n : Nat) (ps : List Inputs), (∀ p ∈ ps, p.isDefined (decide (0 < n)) = true) →
    outcomes (ps.length + n) ((State.built m n).withInputs ps) = (deliveredRequests n ps).map (transact m)

/-- R11, R23, R33: what the host samples for a request depends on that request and MODE only: two instances that
differ in everything else, the other requests and what is in flight among it, answer it with the same port values.
The model's choices in it: states that no reset edge preceded answer like any other (log 15; R81 leaves `rsp_valid`
open there), and past the end of the placed port values the host presents nothing (log 10). -/
def Obligations.ResponseIndependentOfOtherRequests : Prop :=
  ∀ (s s' t t' : State) (p p' : Inputs) (ps ps' : List Inputs), s.mode = s'.mode → s.latency = s'.latency →
    s.inputs = p :: ps → s'.inputs = p' :: ps' → p.request = p'.request →
    p.accepts s.hasReset = true → p'.accepts s'.hasReset = true →
    (∀ q ∈ ps.take (s.latency - 1), q.rst = false) → (∀ q ∈ ps'.take (s.latency - 1), q.rst = false) →
    run (s.latency + 1) s = .next t → run (s.latency + 1) s' = .next t' →
    t.rsp.rspValid = true ∧ t.rsp = t'.rsp

/-- R86: a run of any length ends in a next state if the host presents no undefined request. -/
def Obligations.DefinedInputsNeverFault : Prop :=
  ∀ (k : Nat) (s : State), s.inputsDefined = true → ∃ t, run k s = .next t

/-- R45, R86: and if it issues no reserved code either, from the state after reset every outcome is a value. -/
def Obligations.LegalInputsGiveOnlyValues : Prop :=
  ∀ (m : Mode) (n k : Nat) (ps : List Inputs), (∀ p ∈ ps, p.isLegal (decide (0 < n)) = true) →
    ∀ o ∈ outcomes k ((State.built m n).withInputs ps), ∃ w, o = .next w

/-! ## Reset -/

/-- R27, R16: the state after reset, for every MODE and LATENCY: every valid bit and `rsp_valid` 0. State.reset is
the instance with the default MODE. -/
def Obligations.StateAfterReset : Prop :=
  (∀ (m : Mode) (n : Nat), (State.built m n).mode = m ∧ (State.built m n).latency = n ∧
    (∀ x ∈ (State.built m n).stages, x.valid = false) ∧ (State.built m n).rsp.rspValid = false ∧
    (State.built m n).inputs = []) ∧
  State.reset.mode = .modified

/-- R78, R80: one reset edge, from any state whatever (the unspecified one before it too), clears every valid bit and
keeps MODE. -/
def Obligations.ResetEdgeClearsValidBits : Prop :=
  ∀ (s : State) (p : Inputs) (ps : List Inputs), s.inputs = p :: ps → p.rst = true → 0 < s.latency →
    ∃ t, step s = .next t ∧ (∀ x ∈ t.stages, x.valid = false) ∧ t.mode = s.mode ∧ t.latency = s.latency ∧ t.inputs = ps

/-- R79: a reset edge accepts no request and discards every request in flight: none of the LATENCY edges after it
samples a response. The response due at the reset edge itself is still sampled there. -/
def Obligations.ResetEdgeDiscardsRequestsInFlight : Prop :=
  ∀ (s : State) (p : Inputs) (ps : List Inputs), s.inputs = p :: ps → p.rst = true → 0 < s.latency →
    (∀ (k : Nat) (t : State), 1 ≤ k → k ≤ s.latency → run (k + 1) s = .next t → t.rsp.rspValid = false) ∧
    (∀ x t, s.stages.getLast? = some x → x.valid = true → step s = .next t → t.rsp = ⟨true, x.result, x.err⟩)

/-! ## Invariants -/

/-- R20, R64: every step keeps that `err` = 1 comes only with `result` = 0x00000000. -/
def Obligations.StepKeepsErrMeansIllegal : Prop :=
  ∀ s t : State, s.errMeansIllegal → step s = .next t → t.errMeansIllegal

/-- That invariant holds right after reset, for every MODE and LATENCY. -/
def Obligations.ResetStateErrMeansIllegal : Prop :=
  (∀ (m : Mode) (n : Nat), (State.built m n).errMeansIllegal) ∧ State.reset.errMeansIllegal

/-- R25: while `rsp_valid` = 0 the host concludes nothing, whatever `result` and `err` are; and R65: `err` = 1 means
"reserved operation code" and nothing else. -/
def Obligations.PortOutcomes : Prop :=
  ∀ (w : Word) (e : Bool), (⟨false, w, e⟩ : RspPort).outcome = none ∧
    (⟨true, w, true⟩ : RspPort).outcome = some (.fault .reservedOperationCode) ∧
    (⟨true, w, false⟩ : RspPort).outcome = some (.next w)

/-- R73: an edge of one instance of a session is a step of that instance, leaves every other instance as it is, and
keeps the session's MODE. That a session is a list, of a length no edge changes, and that it stays as it is where the
instance faults, are the model's choices (log 16). -/
def Obligations.SessionInstancesIndependent : Prop :=
  ∀ (l : Session) (k : Nat) (m : Mode),
    (∀ s t, l[k]? = some s → step s = .next t → (l.stepAt k)[k]? = some t) ∧
    (∀ s, l[k]? = some s → (∀ t, step s ≠ .next t) → l.stepAt k = l) ∧
    (∀ j, j ≠ k → (l.stepAt k)[j]? = l[j]?) ∧
    (l.stepAt k).length = l.length ∧ (l.sameMode m = true → (l.stepAt k).sameMode m = true)

/-! ## The assembler -/

/-- R49: each pseudo-instruction expands to exactly one request; ROTLI and ROTRI take a literal in 0..31; the macros
`fnv` and `fnv_reduce` get no pseudo-instruction. That such a line gives the error `unknownMnemonic` is the model's
choice (log 17). -/
def Obligations.PseudoInstructionsExpand : Prop :=
  ∀ (env : HostNames) (tgt : Option HostName),
    (∀ os, assemble env (asmLine tgt "FNV1" os) = assemble env (asmLine tgt "MIXREF" os)) ∧
    (∀ os, assemble env (asmLine tgt "FNV1A" os) = assemble env (asmLine tgt "MIX1A" os)) ∧
    (∀ (n : AsmOperand) (k : Word), k.toNat < 32 →
      assemble env (asmLine tgt "ROTLI" [n, .literal k]) = assemble env (asmLine tgt "ROTL" [n, .literal k]) ∧
      assemble env (asmLine tgt "ROTRI" [n, .literal k]) = assemble env (asmLine tgt "ROTR" [n, .literal k])) ∧
    (∀ n k b, assemble env (asmLine tgt "ROTLI" [n, k]) = .ok b ∨ assemble env (asmLine tgt "ROTRI" [n, k]) = .ok b →
      ∃ w : Word, k = .literal w ∧ w.toNat < 32) ∧
    (∀ os, assemble env (asmLine tgt "FNV" os) = .error .unknownMnemonic ∧
      assemble env (asmLine tgt "FNV_REDUCE" os) = .error .unknownMnemonic)

/-- R39, R41, R42, R48, R49: for every mnemonic but ROTLI and ROTRI, a line with as many operands as its format
reads, each a literal or a name the host holds, assembles to its code's bundle, the operands in order from in0 on and
the unread fields 0x00000000, and the bundle decodes to the operation of that code on the operand words. With another
number of operands the line is no request; that the error is then `wrongOperandCount` is the model's choice (log 17). -/
def Obligations.AssembledLinesEncodeOperands : Prop :=
  (∀ row ∈ asmTable, ∀ code n, row.2 = .request code n →
    ∃ r ∈ spelledRows, r.mnemonic = row.1 ∧ r.code = code ∧ r.operands = n) ∧
  ∀ (env : HostNames) (tgt : Option HostName), ∀ r ∈ spelledRows, ∀ (os : List AsmOperand) (ws : List Word),
    List.Forall₂ (StandsFor env) os ws →
    (os.length = r.operands →
      assemble env (asmLine tgt r.mnemonic os) =
        .ok (Bundle.pack r.code (ws.getD 0 0) (ws.getD 1 0) (ws.getD 2 0) (ws.getD 3 0)) ∧
      decodeBundle (Bundle.pack r.code (ws.getD 0 0) (ws.getD 1 0) (ws.getD 2 0) (ws.getD 3 0)) =
        .ok (r.op (ws.getD 0 0) (ws.getD 1 0) (ws.getD 2 0) (ws.getD 3 0))) ∧
    (os.length ≠ r.operands → assemble env (asmLine tgt r.mnemonic os) = .error .wrongOperandCount)
end

