-- ==== Sys2Proof/Laws/Assembler.lean ====
section
/-! SUPPORT. What the assembler's operations answer (30_encoding.md R48, R49). -/

namespace Sys2Proof.Machine

@[simp] theorem AsmOperand.word_literal (env : HostNames) (w : Word) : (AsmOperand.literal w).word env = .ok w := rfl

theorem AsmOperand.word_name {env : HostNames} {n : HostName} {w : Word} (h : env.lookup n = some w) :
    (AsmOperand.name n).word env = .ok w := by
  simp [AsmOperand.word, h]

/-- Operands that each have a Word have the list of them. -/
theorem operandWords_of_words {env : HostNames} {os : List AsmOperand} {ws : List Word}
    (h : List.Forall₂ (fun o w => o.word env = .ok w) os ws) : operandWords env os = .ok ws := by
  induction h with
  | nil => rfl
  | cons hw _ ih => simp [operandWords, hw, ih]

theorem assembleAs_request {env : HostNames} {os : List AsmOperand} {ws : List Word} (code : OpCode) (n : Nat)
    (h : operandWords env os = .ok ws) :
    assembleAs env (.request code n) os =
      if ws.length = n then .ok (packOperands code ws) else .error .wrongOperandCount := by
  simp [assembleAs, h]

theorem assemble_of_mnemonicOp {l : AsmLine} {op : AsmOp} (env : HostNames) (h : mnemonicOp l.mnemonic = some op) :
    assemble env l = assembleAs env op l.operands := by
  simp [assemble, h]

end Sys2Proof.Machine
end

