-- ==== Sys2Proof/Laws/State.lean ====
section
/-! SUPPORT. One lemma for each field of State under each update, by rfl, and the lengths that follow. -/

namespace Sys2Proof.Machine

section Updates

variable (s : State) (x : Stage) (a : Answer) (p : Inputs)

@[simp] theorem State.clockEdge_mode : (s.clockEdge x).mode = s.mode := rfl
@[simp] theorem State.clockEdge_inputs : (s.clockEdge x).inputs = s.inputs := rfl
@[simp] theorem State.clockEdge_stages : (s.clockEdge x).stages = (x :: s.stages).dropLast := rfl
@[simp] theorem State.clockEdge_rsp : (s.clockEdge x).rsp = .ofStage s.draws (s.stages.getLastD x) := rfl
@[simp] theorem State.clockEdge_draws : (s.clockEdge x).draws = s.draws + 1 := rfl

@[simp] theorem State.idleEdge_mode : s.idleEdge.mode = s.mode := rfl
@[simp] theorem State.idleEdge_inputs : s.idleEdge.inputs = s.inputs := rfl
@[simp] theorem State.idleEdge_draws : s.idleEdge.draws = s.draws + 1 := rfl

@[simp] theorem State.resetEdge_mode : s.resetEdge.mode = s.mode := rfl
@[simp] theorem State.resetEdge_inputs : s.resetEdge.inputs = s.inputs := rfl
@[simp] theorem State.resetEdge_stages : s.resetEdge.stages = clearedStages s.draws s.stages.length := rfl
@[simp] theorem State.resetEdge_rsp : s.resetEdge.rsp = s.idleEdge.rsp := rfl
@[simp] theorem State.resetEdge_draws : s.resetEdge.draws = s.draws + 1 := rfl

@[simp] theorem State.dropInput_mode : s.dropInput.mode = s.mode := rfl
@[simp] theorem State.dropInput_stages : s.dropInput.stages = s.stages := rfl
@[simp] theorem State.dropInput_inputs : s.dropInput.inputs = s.inputs.drop 1 := rfl
@[simp] theorem State.dropInput_rsp : s.dropInput.rsp = s.rsp := rfl
@[simp] theorem State.dropInput_draws : s.dropInput.draws = s.draws := rfl

@[simp] theorem State.place_mode : (s.place p).mode = s.mode := rfl
@[simp] theorem State.place_stages : (s.place p).stages = s.stages := rfl
@[simp] theorem State.place_inputs : (s.place p).inputs = p :: s.inputs.drop 1 := rfl
@[simp] theorem State.place_rsp : (s.place p).rsp = s.rsp := rfl
@[simp] theorem State.place_draws : (s.place p).draws = s.draws := rfl

@[simp] theorem State.withInputs_mode (ps : List Inputs) : (s.withInputs ps).mode = s.mode := rfl
@[simp] theorem State.withInputs_stages (ps : List Inputs) : (s.withInputs ps).stages = s.stages := rfl
@[simp] theorem State.withInputs_inputs (ps : List Inputs) : (s.withInputs ps).inputs = ps := rfl
@[simp] theorem State.withInputs_rsp (ps : List Inputs) : (s.withInputs ps).rsp = s.rsp := rfl
@[simp] theorem State.withInputs_draws (ps : List Inputs) : (s.withInputs ps).draws = s.draws := rfl

@[simp] theorem clearedStages_length (draw n : Nat) : (clearedStages draw n).length = n := by
  simp [clearedStages]

/-- Every stage after a reset edge is empty (R27, R78). -/
theorem clearedStages_empty {draw n : Nat} (h : x ∈ clearedStages draw n) : x.valid = false := by
  obtain ⟨k, -, rfl⟩ := List.mem_map.mp h
  rfl

/-- No edge changes the number of stages (R5, R22). -/
@[simp] theorem State.clockEdge_latency : (s.clockEdge x).latency = s.latency := by simp [State.latency]

@[simp] theorem State.resetEdge_latency : s.resetEdge.latency = s.latency := by simp [State.latency]

@[simp] theorem State.dropInput_latency : s.dropInput.latency = s.latency := rfl

end Updates

end Sys2Proof.Machine
end

