-- ==== Sys2Proof/Laws/Ops.lean ====
section
/-! SUPPORT. What each shared operation can do, said once. -/

namespace Sys2Proof.Machine

section

variable {w : Nat}

@[simp] theorem isDriven_of (v : BitVec w) : (Signal.of v).isDriven = true := by simp [Signal.of, Signal.isDriven]

@[simp] theorem read_of (v : BitVec w) : (Signal.of v).read = some v := by simp [Signal.read, Signal.of, Signal.isDriven]

/-- A signal with every bit driven is one that `Signal.of` makes. -/
theorem eq_of_isDriven {x : Signal w} (h : x.isDriven = true) : x = .of x.value := by
  cases x
  simp_all [Signal.isDriven, Signal.of]

theorem read_of_not_isDriven {x : Signal w} (h : x.isDriven = false) : x.read = none := by simp [Signal.read, h]

@[simp] theorem withOperand_of (v : BitVec w) (k : BitVec w → Result) : withOperand (.of v) k = k v := by
  simp [withOperand]

/-- Reading an operand faults or goes on; it never ends in another way (R86). -/
theorem withOperand_cases (x : Signal w) (k : BitVec w → Result) :
    (x.isDriven = true ∧ withOperand x k = k x.value) ∨
      (x.isDriven = false ∧ withOperand x k = .fault .undrivenOperand) := by
  cases h : x.isDriven with
  | true => exact .inl ⟨rfl, by rw [eq_of_isDriven h, withOperand_of]; rfl⟩
  | false => exact .inr ⟨rfl, by simp [withOperand, read_of_not_isDriven h]⟩

/-- If reading an operand and going on answers a next state, the operand was driven and going on gave it. -/
theorem withOperand_next {x : Signal w} {k : BitVec w → Result} {t : State} (h : withOperand x k = .next t) :
    x.isDriven = true ∧ k x.value = .next t := by
  obtain ⟨hd, hk⟩ | ⟨-, hf⟩ := withOperand_cases x k
  · exact ⟨hd, hk ▸ h⟩
  · rw [hf] at h
    cases h

end

/-- The port shows exactly a valid stage's response (R22). -/
@[simp] theorem ofStage_valid (draw : Nat) (w : Word) (e : Bool) :
    RspPort.ofStage draw ⟨true, w, e⟩ = ⟨true, w, e⟩ := rfl

@[simp] theorem ofStage_rspValid (draw : Nat) (x : Stage) : (RspPort.ofStage draw x).rspValid = x.valid := by
  unfold RspPort.ofStage
  split <;> simp_all [idlePort]

end Sys2Proof.Machine
end

