-- ==== Sys2Proof/Laws/Exec.lean ====
section
/-! SUPPORT. What `exec`, an edge and a step can do, said once: later proofs split into these cases and unfold no
meaning. -/

namespace Sys2Proof.Machine

/-- A next state of `exec` is always the edge that accepts a request, with some answer (R20). -/
theorem exec_next {i : Instr} {s t : State} (h : exec i s = .next t) : ∃ a, t = s.respond a := by
  cases i with
  | rotl n c =>
    obtain ⟨-, h⟩ := withOperand_next h
    obtain ⟨-, h⟩ := withOperand_next h
    exact ⟨_, (Host.Outcome.next.inj h).symm⟩
  | rotr n c =>
    obtain ⟨-, h⟩ := withOperand_next h
    obtain ⟨-, h⟩ := withOperand_next h
    exact ⟨_, (Host.Outcome.next.inj h).symm⟩
  | clz x =>
    obtain ⟨-, h⟩ := withOperand_next h
    exact ⟨_, (Host.Outcome.next.inj h).symm⟩
  | popcnt x =>
    obtain ⟨-, h⟩ := withOperand_next h
    exact ⟨_, (Host.Outcome.next.inj h).symm⟩
  | mulhi x y =>
    obtain ⟨-, h⟩ := withOperand_next h
    obtain ⟨-, h⟩ := withOperand_next h
    exact ⟨_, (Host.Outcome.next.inj h).symm⟩
  | mix u v =>
    obtain ⟨-, h⟩ := withOperand_next h
    obtain ⟨-, h⟩ := withOperand_next h
    exact ⟨_, (Host.Outcome.next.inj h).symm⟩
  | mixref u v =>
    obtain ⟨-, h⟩ := withOperand_next h
    obtain ⟨-, h⟩ := withOperand_next h
    exact ⟨_, (Host.Outcome.next.inj h).symm⟩
  | mixmod u v =>
    obtain ⟨-, h⟩ := withOperand_next h
    obtain ⟨-, h⟩ := withOperand_next h
    exact ⟨_, (Host.Outcome.next.inj h).symm⟩
  | mix1a u v =>
    obtain ⟨-, h⟩ := withOperand_next h
    obtain ⟨-, h⟩ := withOperand_next h
    exact ⟨_, (Host.Outcome.next.inj h).symm⟩
  | reduce4 x y z w =>
    obtain ⟨-, h⟩ := withOperand_next h
    obtain ⟨-, h⟩ := withOperand_next h
    obtain ⟨-, h⟩ := withOperand_next h
    obtain ⟨-, h⟩ := withOperand_next h
    exact ⟨_, (Host.Outcome.next.inj h).symm⟩
  | reserved101x low => exact ⟨.illegal, (Host.Outcome.next.inj h).symm⟩
  | reserved11xx low => exact ⟨.illegal, (Host.Outcome.next.inj h).symm⟩

theorem acceptRequest_next {r : Request} {s t : State} (h : acceptRequest r s = .next t) :
    ∃ i, decode r = .ok i ∧ exec i s = .next t := by
  unfold acceptRequest at h
  split at h
  · exact ⟨_, ‹_›, h⟩
  · cases h

/-- The three kinds of edge (R19, R25, R79). -/
theorem edgeWith_next {p : Inputs} {s t : State} (h : edgeWith p s = .next t) :
    (p.rst = true ∧ s.hasReset = true ∧ t = s.resetEdge) ∨
      (p.accepts s.hasReset = true ∧ ∃ i a, decode p.request = .ok i ∧ exec i s = .next t ∧ t = s.respond a) ∨
      (p.reqValid = false ∧ t = s.idleEdge) := by
  unfold edgeWith at h
  split at h
  · exact .inl ⟨by simp_all, by simp_all, (Host.Outcome.next.inj h).symm⟩
  · rename_i hr
    split at h
    · obtain ⟨i, hi, he⟩ := acceptRequest_next h
      obtain ⟨a, ha⟩ := exec_next he
      exact .inr (.inl ⟨by simp [Inputs.accepts, hr, ‹p.reqValid = true›], i, a, hi, he, ha⟩)
    · exact .inr (.inr ⟨by simp_all, (Host.Outcome.next.inj h).symm⟩)

/-- What one step can do: it is the edge of the next port values, or an idle edge where none is placed. -/
theorem step_next {s t : State} (h : step s = .next t) :
    (∃ p ps, s.inputs = p :: ps ∧ edgeWith p s.dropInput = .next t) ∨ (s.inputs = [] ∧ t = s.idleEdge) := by
  unfold step at h
  split at h
  · exact .inl ⟨_, _, ‹_›, h⟩
  · exact .inr ⟨‹_›, (Host.Outcome.next.inj h).symm⟩

/-- A run that ends in a next state makes its first step and then runs on. -/
theorem run_succ_next {k : Nat} {s t : State} :
    run (k + 1) s = .next t ↔ ∃ u, step s = .next u ∧ run k u = .next t := by
  simp only [run]
  cases step s <;> simp

theorem host_run_of_next {M : Host.Core} {k : Nat} {s t : M.State} (h : M.step s = .next t) :
    M.run (k + 1) s = M.run k t := by simp [Host.Core.run, h]

theorem host_run_of_fault {M : Host.Core} {k : Nat} {s : M.State} {f : M.Fault} (h : M.step s = .fault f) :
    M.run (k + 1) s = .fault f := by simp [Host.Core.run, h]

theorem host_run_of_refused {M : Host.Core} {k : Nat} {s : M.State} {e : M.Refusal} (h : M.step s = .refused e) :
    M.run (k + 1) s = .refused e := by simp [Host.Core.run, h]

/-- `run` is the host's run of the machine. -/
theorem run_eq_core_run (k : Nat) (s : State) : run k s = core.run k s := by
  induction k generalizing s with
  | zero => rfl
  | succ k ih =>
    simp only [run]
    cases h : step s with
    | next t => exact (ih t).trans (host_run_of_next (M := core) h).symm
    | fault f => exact (host_run_of_fault (M := core) h).symm
    | refused e => exact (host_run_of_refused (M := core) h).symm

end Sys2Proof.Machine
end

