-- ==== Sys2Proof/Laws/PerInstr.lean ====
section
/-! SUPPORT. The family OpField: the encoder puts an operation's code where the decoder looks for it. -/

namespace Sys2Proof.Laws.OpField

/-- The `op` field of an operation's bundle is the operation's code (30_encoding.md R38, R42). -/
def Statement (i : Instr) : Prop := (encode i).extractLsb' 128 4 = i.opcode

/-- `op` is the bundle's top field (R38). -/
theorem op_of_pack (op : OpCode) (a b c d : Word) : (Bundle.pack op a b c d).extractLsb' 128 4 = op := by
  refine BitVec.eq_of_getLsbD_eq fun k hk => ?_
  simp only [Bundle.pack, BitVec.getLsbD_extractLsb', BitVec.getLsbD_append]
  simp only [hk, decide_true, Bool.true_and]
  rw [if_neg (by omega), if_neg (by omega), if_neg (by omega), if_neg (by omega)]
  exact congrArg op.getLsbD (by omega)

theorem rotl (n : Signal 32) (c : Signal 5) : Statement (.rotl n c) := op_of_pack _ _ _ _ _
theorem rotr (n : Signal 32) (c : Signal 5) : Statement (.rotr n c) := op_of_pack _ _ _ _ _
theorem clz (x : Signal 32) : Statement (.clz x) := op_of_pack _ _ _ _ _
theorem popcnt (x : Signal 32) : Statement (.popcnt x) := op_of_pack _ _ _ _ _
theorem mulhi (x y : Signal 32) : Statement (.mulhi x y) := op_of_pack _ _ _ _ _
theorem mix (u v : Signal 32) : Statement (.mix u v) := op_of_pack _ _ _ _ _
theorem mixref (u v : Signal 32) : Statement (.mixref u v) := op_of_pack _ _ _ _ _
theorem mixmod (u v : Signal 32) : Statement (.mixmod u v) := op_of_pack _ _ _ _ _
theorem mix1a (u v : Signal 32) : Statement (.mix1a u v) := op_of_pack _ _ _ _ _
theorem reduce4 (x y z w : Signal 32) : Statement (.reduce4 x y z w) := op_of_pack _ _ _ _ _
theorem reserved101x (low : BitVec 1) : Statement (.reserved101x low) := op_of_pack _ _ _ _ _
theorem reserved11xx (low : BitVec 2) : Statement (.reserved11xx low) := op_of_pack _ _ _ _ _

end Sys2Proof.Laws.OpField
end

