-- ==== Sys2Proof/Laws/Session.lean ====
section
/-! SUPPORT. What an edge of one instance of a session can do (60_exceptions.md R73, log 16). -/

namespace Sys2Proof.Machine

/-- The session takes over the instance's next state, or stays as it is. -/
theorem Session.stepAt_cases (l : Session) (k : Nat) :
    (∃ s t, l[k]? = some s ∧ step s = .next t ∧ l.stepAt k = l.set k t) ∨
      ((∀ s, l[k]? = some s → ∀ t, step s ≠ .next t) ∧ l.stepAt k = l) := by
  cases hs : l[k]? with
  | none => exact .inr ⟨nofun, by simp [Session.stepAt, hs]⟩
  | some s =>
    cases ht : step s with
    | next t => exact .inl ⟨s, t, rfl, ht, by simp [Session.stepAt, hs, ht]⟩
    | fault f => exact .inr ⟨by rintro _ ⟨⟩ t h; simp [ht] at h, by simp [Session.stepAt, hs, ht]⟩
    | refused e => exact .inr ⟨by rintro _ ⟨⟩ t h; simp [ht] at h, by simp [Session.stepAt, hs, ht]⟩

end Sys2Proof.Machine
end

