-- ==== Sys2Proof/Machine/Depth.lean ====
section
/-! DEFINITION. The datapath depth table of 70_reset_and_hazards.md R89 (informative; no rule depends on it). -/

namespace Sys2Proof.Machine

/-- Multiplies in series in one mixing step under `MODE` = `m` (R89, row MIX). -/
def mixMultiplies : Mode → Nat
  | .reference => 1
  | .modified => 2

/-- The 32x32 multiplies chained in the longest path of an operation (R89); a reserved code has no datapath. -/
def multipliesInSeries (m : Mode) : Instr → Nat
  | .rotl _ _ => 0
  | .rotr _ _ => 0
  | .clz _ => 0
  | .popcnt _ => 0
  | .mulhi _ _ => 1
  | .mix _ _ => mixMultiplies m
  | .mixref _ _ => 1
  | .mixmod _ _ => 2
  | .mix1a _ _ => 1
  | .reduce4 _ _ _ _ => 3 * mixMultiplies m
  | .reserved101x _ => 0
  | .reserved11xx _ => 0

end Sys2Proof.Machine
end

