-- ==== Sys2Proof/Tests/Slice0.lean ====
section
/-! SUPPORT. The model's own tests: well-formedness, decoding of words written out from spec/, one step of each
operation on values of 95_test_vectors.md, and for each statement with hypotheses a state and operands that meet them. -/

namespace Sys2Proof.Tests

open Sys2Proof Sys2Proof.Machine

/-! ## Helpers -/

/-- A Word with bit 7 undriven. -/
def holed : Signal 32 := ⟨0#32, ~~~(0x80#32)⟩

/-- A rotate amount with bit 4 undriven. -/
def holedAmount : Signal 5 := ⟨0#5, 0b01111#5⟩

/-- A driven Word. -/
def word (v : Word) : Signal 32 := .of v

/-- A request with every bit driven. -/
def req (op : OpCode) (a b c d : Word) : Request := ⟨.of op, .of a, .of b, .of c, .of d⟩

/-- A request with an undriven bit in `req_op`. -/
def holedOp : Request := ⟨⟨0#4, 0b0111#4⟩, .of 0, .of 0, .of 0, .of 0⟩

/-- An instance of `n` stages with those port values to come. -/
def block (m : Mode) (n : Nat) (ps : List Inputs) : State := (State.built m n).withInputs ps

/-- One stage, holding a response. -/
def loaded (ps : List Inputs) : State := { block .modified 1 ps with stages := [⟨true, 7, false⟩] }

def present (op : OpCode) (a b c d : Word) : Inputs := .present (req op a b c d)

def resetInputs : Inputs := ⟨true, false, req 0 0 0 0 0⟩

def idleInputs : Inputs := ⟨false, false, req 0 0 0 0 0⟩

/-- The port after one edge: (rsp_valid, err, result). -/
def port : Result → Option (Bool × Bool × Word)
  | .next t => some (t.rsp.rspValid, t.rsp.err, t.rsp.result)
  | .fault _ => none
  | .refused _ => none

/-- What the combinational block answers to an operation. -/
def answer (m : Mode) (i : Instr) : Option (Bool × Bool × Word) := port (exec i (State.built m 0))

def faultOf : Result → Option Fault
  | .next _ => none
  | .fault f => some f
  | .refused _ => none

/-! ## Well-formedness: each check refuses an ill-formed operation (R86) -/

theorem test_wf_rotl : ((Instr.rotl holed (.of 4)).wellFormed || (Instr.rotl (word 1) holedAmount).wellFormed) = false := by decide
theorem test_wf_rotr : ((Instr.rotr holed (.of 4)).wellFormed || (Instr.rotr (word 1) holedAmount).wellFormed) = false := by decide
theorem test_wf_clz : (Instr.clz holed).wellFormed = false := by decide
theorem test_wf_popcnt : (Instr.popcnt holed).wellFormed = false := by decide
theorem test_wf_mulhi : ((Instr.mulhi holed (word 1)).wellFormed || (Instr.mulhi (word 1) holed).wellFormed) = false := by decide
theorem test_wf_mix : ((Instr.mix holed (word 1)).wellFormed || (Instr.mix (word 1) holed).wellFormed) = false := by decide
theorem test_wf_mixref : ((Instr.mixref holed (word 1)).wellFormed || (Instr.mixref (word 1) holed).wellFormed) = false := by decide
theorem test_wf_mixmod : ((Instr.mixmod holed (word 1)).wellFormed || (Instr.mixmod (word 1) holed).wellFormed) = false := by decide
theorem test_wf_mix1a : ((Instr.mix1a holed (word 1)).wellFormed || (Instr.mix1a (word 1) holed).wellFormed) = false := by decide
theorem test_wf_reduce4 :
    ((Instr.reduce4 holed (word 1) (word 1) (word 1)).wellFormed || (Instr.reduce4 (word 1) holed (word 1) (word 1)).wellFormed ||
      (Instr.reduce4 (word 1) (word 1) holed (word 1)).wellFormed || (Instr.reduce4 (word 1) (word 1) (word 1) holed).wellFormed) = false := by
  decide

/-! ## Decoding: bundles of 95_test_vectors.md section 2.6 and R50 -/

theorem test_decode_rotl : decodeBundle 0x0_00000000_00000000_00000025_12345678 = .ok (.rotl (word 0x12345678) (.of 5)) := by rfl
theorem test_decode_rotr : decodeBundle 0x1_00000000_00000000_00000004_12345678 = .ok (.rotr (word 0x12345678) (.of 4)) := by rfl
theorem test_decode_clz : decodeBundle 0x2_00000000_00000000_DEADBEEF_00000001 = .ok (.clz (word 1)) := by rfl
theorem test_decode_popcnt : decodeBundle 0x3_00000000_00000000_00000000_0F0F0F0F = .ok (.popcnt (word 0x0F0F0F0F)) := by rfl
theorem test_decode_mulhi : decodeBundle 0x4_00000000_00000000_FFFFFFFF_FFFFFFFF = .ok (.mulhi (word 0xFFFFFFFF) (word 0xFFFFFFFF)) := by rfl
theorem test_decode_mix : decodeBundle 0x5_00000000_00000000_00000000_00000001 = .ok (.mix (word 1) (word 0)) := by rfl
theorem test_decode_mixref : decodeBundle 0x6_00000000_00000000_9ABCDEF0_12345678 = .ok (.mixref (word 0x12345678) (word 0x9ABCDEF0)) := by rfl
theorem test_decode_mixmod : decodeBundle 0x7_00000000_00000000_00000000_00000000 = .ok (.mixmod (word 0) (word 0)) := by rfl
theorem test_decode_mix1a : decodeBundle 0x8_00000000_00000000_00000061_811C9DC5 = .ok (.mix1a (word 0x811C9DC5) (word 0x61)) := by rfl
theorem test_decode_reduce4 : decodeBundle 0x9_00000004_00000003_00000002_00000001 = .ok (.reduce4 (word 1) (word 2) (word 3) (word 4)) := by rfl
theorem test_decode_reserved_A : decodeBundle 0xA_00000004_00000003_00000002_00000001 = .ok (.reserved101x 0) := by rfl
theorem test_decode_reserved_B : decodeBundle 0xB_00000000_00000000_00000000_00000000 = .ok (.reserved101x 1) := by rfl
theorem test_decode_reserved_C : decodeBundle 0xC_00000000_00000000_00000000_00000000 = .ok (.reserved11xx 0) := by rfl
theorem test_decode_reserved_F : decodeBundle 0xF_00000000_00000000_00000000_00000000 = .ok (.reserved11xx 3) := by rfl
theorem test_decode_undriven_op : decode holedOp = .error .undrivenOperationCode := by rfl
/-- spec/opcode_table.json's rows do not overlap (R42, R43, R45). -/
theorem test_rows_disjoint : opRows.Pairwise fun a b => ∀ op, ¬ (a.matchesCode op = true ∧ b.matchesCode op = true) := by decide
theorem test_encode_reduce4 : encode (.reduce4 (word 1) (word 2) (word 3) (word 4)) = 0x9_00000004_00000003_00000002_00000001 := by decide
theorem test_table_word : decodeTableWord 8 0x5 = some (.mix (word 0) (word 0)) := by rfl

/-! ## One step of each operation: 95_test_vectors.md sections 2.1 to 2.6 -/

theorem test_rotl_wraps : answer .modified (.rotl (word 0x80000001) (.of 1)) = some (true, false, 0x00000003) := by decide
theorem test_rotl_31 : answer .modified (.rotl (word 0x12345678) (.of 31)) = some (true, false, 0x091A2B3C) := by decide
theorem test_rotr_wraps : answer .modified (.rotr (word 0x80000001) (.of 1)) = some (true, false, 0xC0000000) := by decide
theorem test_rotr_5 : answer .modified (.rotr (word 0x12345678) (.of 5)) = some (true, false, 0xC091A2B3) := by decide
theorem test_clz_zero : answer .modified (.clz (word 0)) = some (true, false, 0x20) := by decide
theorem test_clz_middle : answer .modified (.clz (word 0x00F00000)) = some (true, false, 8) := by decide
theorem test_popcnt_all : answer .modified (.popcnt (word 0xFFFFFFFF)) = some (true, false, 0x20) := by decide
theorem test_popcnt_half : answer .modified (.popcnt (word 0x7FFFFFFF)) = some (true, false, 0x1F) := by decide
theorem test_mulhi_max : answer .modified (.mulhi (word 0xFFFFFFFF) (word 0xFFFFFFFF)) = some (true, false, 0xFFFFFFFE) := by decide
theorem test_mulhi_general : answer .modified (.mulhi (word 0x12345678) (word 0x9ABCDEF0)) = some (true, false, 0x0B00EA4E) := by decide
theorem test_mix_reference : answer .reference (.mix (word 0x12345678) (word 0x9ABCDEF0)) = some (true, false, 0xBAD8C018) := by decide
theorem test_mix_modified : answer .modified (.mix (word 0x12345678) (word 0x9ABCDEF0)) = some (true, false, 0xFB6A2755) := by decide
theorem test_mixref_wraps : answer .modified (.mixref (word 0xFFFFFFFF) (word 0)) = some (true, false, 0xFEFFFE6D) := by decide
theorem test_mixref_general : answer .modified (.mixref (word 0xDEADBEEF) (word 0xCAFEBABE)) = some (true, false, 0xB07D2883) := by decide
theorem test_mixmod_zero : answer .reference (.mixmod (word 0) (word 0)) = some (true, false, 0x117697CD) := by decide
theorem test_mixmod_general : answer .reference (.mixmod (word 0xDEADBEEF) (word 0xCAFEBABE)) = some (true, false, 0xDF0F2EE0) := by decide
theorem test_mix1a_first : answer .reference (.mix1a (word 0x811C9DC5) (word 0x61)) = some (true, false, 0xE40C292C) := by decide
theorem test_mix1a_general : answer .modified (.mix1a (word 0x12345678) (word 0x9ABCDEF0)) = some (true, false, 0x76EEEE18) := by decide
theorem test_reduce4_reference : answer .reference (.reduce4 (word 1) (word 2) (word 3) (word 4)) = some (true, false, 0xEFE1B9C4) := by decide
theorem test_reduce4_modified : answer .modified (.reduce4 (word 4) (word 3) (word 2) (word 1)) = some (true, false, 0x6D1BABB5) := by decide
theorem test_reserved101x : answer .modified (.reserved101x 0) = some (true, true, 0) := by decide
theorem test_reserved11xx : answer .reference (.reserved11xx 3) = some (true, true, 0) := by decide
theorem test_undriven_operand : faultOf (exec (.rotl (word 1) holedAmount) (State.built .modified 0)) = some .undrivenOperand := by rfl
theorem test_undriven_op : faultOf (step (block .modified 0 [.present holedOp])) = some .undrivenOperationCode := by rfl

/-- The first instruction after reset runs, whatever LATENCY is (log 11). -/
theorem test_first_step_after_reset :
    step (State.reset.withFetchWord 8 0x5) = exec (.mix (word 0) (word 0)) (State.reset.withFetchWord 8 0x5).dropInput := by rfl

/-- With LATENCY = 1 the response shows one edge later (R22). -/
theorem test_latency_one : port (run 2 (block .modified 1 [present 0x2 1 0 0 0])) = some (true, false, 0x1F) := by decide

/-- R89's table, row REDUCE4. -/
theorem test_depth_reduce4 : multipliesInSeries .modified (.reduce4 (word 0) (word 0) (word 0) (word 0)) = 6 := by rfl

/-! ## The assembler (R48, R49) -/

theorem test_asm_any_case : assembleText [] "rotl 0x12345678, 37 ; any case" =
    .ok (some 0x0_00000000_00000000_00000025_12345678) := by decide
theorem test_asm_name : parseLine "h = MIX1A h, 0x61" =
    .ok (some ⟨some ['h'], "MIX1A".toList, [.name ['h'], .literal 0x61]⟩) := by decide
theorem test_asm_range : assembleText [] "CLZ 4294967296" = .error .badOperand := by decide
theorem test_asm_rotli : assembleText [] "ROTLI 1, 32" = .error .amountOutOfRange := by decide

/-! ## Witnesses: the hypotheses of each statement are met together -/

theorem witness_DecodeReadsOnlyOpCode :
    (req 9 1 2 3 4).op.isDriven = true ∧ (req 9 0 0 0 0).op = (req 9 1 2 3 4).op ∧ holedOp.op.isDriven = false := by decide

theorem witness_DecodeOfEncode : (Instr.rotl (word 0xFFFFFFFF) (.of 31)).wellFormed = true := by decide

theorem witness_UnreadFieldsHaveNoEffect :
    let r : Request := { req 0 7 0xFFFFFFE4 0 0 with in2 := holed }
    let r' : Request := { req 0 7 4 9 9 with in3 := holed }
    r.op = r'.op ∧ (∀ row ∈ opRows, row.matchesCode r.op.value = true → agreeOn row.format r r') := by
  refine ⟨rfl, ?_⟩
  intro row hr hm
  have : row.format = .r := (by decide : ∀ row ∈ opRows, row.matchesCode 0 = true → row.format = .r) row hr hm
  rw [this]
  exact ⟨rfl, rfl⟩

theorem witness_RotlAnswersRotatedWord :
    (req 0x0 1 0xFFFFFFFF 0 0).op = .of 0x0 ∧ (req 0x0 1 0xFFFFFFFF 0 0).in0 = .of 1 ∧
      (req 0x0 1 0xFFFFFFFF 0 0).in1.amount = .of 31 := by decide

theorem witness_RotrAnswersRotatedWord :
    (req 0x1 1 0x20 0 0).op = .of 0x1 ∧ (req 0x1 1 0x20 0 0).in0 = .of 1 ∧ (req 0x1 1 0x20 0 0).in1.amount = .of 0 := by decide

theorem witness_ClzAnswersLeadingZeros_zero :
    (req 0x2 0 0 0 0).op = .of 0x2 ∧ (req 0x2 0 0 0 0).in0 = .of 0x00000000 := by decide

theorem witness_ClzAnswersLeadingZeros_top :
    (req 0x2 0x80000000 0 0 0).op = .of 0x2 ∧ (req 0x2 0x80000000 0 0 0).in0 = .of 0x80000000 ∧
      (0x80000000#32).getLsbD 31 = true ∧ ∀ j < 32, 31 < j → (0x80000000#32).getLsbD j = false := by decide

theorem witness_PopcntAnswersSumOfBits :
    (req 0x3 0xFFFFFFFF 0 0 0).op = .of 0x3 ∧ (req 0x3 0xFFFFFFFF 0 0 0).in0 = .of 0xFFFFFFFF := by decide

theorem witness_MulhiAnswersUpperProduct :
    (req 0x4 2 3 0 0).op = .of 0x4 ∧ (req 0x4 2 3 0 0).in0 = .of 2 ∧ (req 0x4 2 3 0 0).in1 = .of 3 := by decide

theorem witness_MixrefAnswersMultiplyThenXor :
    (req 0x6 2 3 0 0).op = .of 0x6 ∧ (req 0x6 2 3 0 0).in0 = .of 2 ∧ (req 0x6 2 3 0 0).in1 = .of 3 := by decide

theorem witness_MixmodAnswersModifiedFormula :
    (req 0x7 2 3 0 0).op = .of 0x7 ∧ (req 0x7 2 3 0 0).in0 = .of 2 ∧ (req 0x7 2 3 0 0).in1 = .of 3 := by decide

theorem witness_MixAnswersFormulaOfMode :
    (req 0x5 2 3 0 0).op = .of 0x5 ∧ (req 0x5 2 3 0 0).in0 = .of 2 ∧ (req 0x5 2 3 0 0).in1 = .of 3 ∧
      (State.built .reference 3).mode = .reference ∧ (State.built .modified 3).mode = .modified := by decide

theorem witness_Mix1aAnswersXorThenMultiply :
    (req 0x8 2 3 0 0).op = .of 0x8 ∧ (req 0x8 2 3 0 0).in0 = .of 2 ∧ (req 0x8 2 3 0 0).in1 = .of 3 := by decide

theorem witness_Reduce4AnswersChainedMix :
    (req 0x9 1 2 3 4).op = .of 0x9 ∧ (req 0x9 1 2 3 4).in0 = .of 1 ∧ (req 0x9 1 2 3 4).in1 = .of 2 ∧
      (req 0x9 1 2 3 4).in2 = .of 3 ∧ (req 0x9 1 2 3 4).in3 = .of 4 := by decide

/-- Both reserved rows, at the ends of their ranges. -/
theorem witness_ReservedCodesAnswerIllegal :
    ∀ op ∈ [0xA#4, 0xB#4, 0xC#4, 0xF#4], 10 ≤ op.toNat ∧ (req op 1 2 3 4).op = .of op := by decide

theorem witness_DrivenOperationsAnswerWithoutError :
    (Instr.reduce4 (word 1) (word 2) (word 3) (word 4)).wellFormed = true ∧
      (Instr.reduce4 (word 1) (word 2) (word 3) (word 4)).format ≠ .none := by decide

theorem witness_UndrivenFieldsFault :
    (Instr.mix (word 1) holed).wellFormed = false ∧ holedOp.op.isDriven = false ∧
      ({ req 0x2 1 0 0 0 with in1 := holed } : Request).isDefined = true := by decide

theorem witness_ClzBracketsValue : (1#32 : Word) ≠ 0 := by decide

theorem witness_RotlByClzNormalises : (0x0000FFFF#32 : Word) ≠ 0 := by decide

theorem witness_OnlyMixAndReduce4ReadMode :
    (req 0x7 1 2 0 0).op.value ≠ 0x5 ∧ (req 0x7 1 2 0 0).op.value ≠ 0x9 ∧
      (Instr.mixmod (word 1) (word 2)).opcode ≠ 0x5 ∧ (Instr.mixmod (word 1) (word 2)).opcode ≠ 0x9 ∧
      ∃ t, exec (.mixmod (word 1) (word 2)) (State.built .modified 1) = .next t :=
  ⟨by decide, by decide, by decide, by decide, _, rfl⟩

theorem witness_RunsKeepBuildParameters :
    ∃ t, run 2 (block .reference 1 [resetInputs, present 0x5 1 2 0 0]) = .next t := ⟨_, rfl⟩

theorem witness_StepRunsDecodedOperation :
    (block .modified 1 [present 0x5 1 2 0 0]).inputs = [present 0x5 1 2 0 0] ∧
      (present 0x5 1 2 0 0).accepts (block .modified 1 [present 0x5 1 2 0 0]).hasReset = true ∧
      decode (present 0x5 1 2 0 0).request = .ok (.mix (word 1) (word 2)) := ⟨rfl, by decide, rfl⟩

theorem witness_StepRunsDecodedOperation_undriven :
    let p := Inputs.present holedOp
    (block .modified 1 [p]).inputs = [p] ∧ p.accepts (block .modified 1 [p]).hasReset = true ∧
      p.request.op.isDriven = false := ⟨rfl, by decide, by decide⟩

theorem witness_StepWithoutRequest_reset :
    (block .modified 1 [resetInputs]).inputs = [resetInputs] ∧ resetInputs.rst = true ∧
      (block .modified 1 [resetInputs]).hasReset = true := ⟨rfl, rfl, by decide⟩

theorem witness_StepWithoutRequest_idle :
    (block .modified 1 [idleInputs]).inputs = [idleInputs] ∧
      (idleInputs.rst && (block .modified 1 [idleInputs]).hasReset) = false ∧ idleInputs.reqValid = false ∧
      (block .modified 1 []).inputs = [] := ⟨rfl, by decide, rfl, rfl⟩

theorem witness_AcceptingEdgeFrame :
    (∃ t, exec (.clz (word 1)) (loaded []) = .next t) ∧ (loaded []).stages.getLast? = some ⟨true, 7, false⟩ ∧
      0 + 1 < (block .modified 2 []).latency ∧ ∃ x, (block .modified 1 []).stages.getLast? = some x ∧ x.valid = false :=
  ⟨⟨_, rfl⟩, rfl, by decide, _, rfl, rfl⟩

theorem witness_EdgeSamplesOutputsOfCycle : 0 < (loaded [resetInputs]).latency ∧ ∃ t, step (loaded [resetInputs]) = .next t :=
  ⟨by decide, _, rfl⟩

theorem witness_CombinationalResponse :
    (block .modified 0 [present 0xA 0 0 0 0]).latency = 0 ∧
      (block .modified 0 [present 0xA 0 0 0 0]).inputs = [present 0xA 0 0 0 0] ∧
      (∃ t, step (block .modified 0 [present 0xA 0 0 0 0]) = .next t) ∧ (present 0xA 0 0 0 0).reqValid = true :=
  ⟨by decide, rfl, ⟨_, rfl⟩, rfl⟩

theorem witness_ResponseAppearsAfterLatency_response :
    let s := block .modified 2 [present 0x2 1 0 0 0, idleInputs, resetInputs]
    s.inputs = present 0x2 1 0 0 0 :: [idleInputs, resetInputs] ∧ (present 0x2 1 0 0 0).accepts s.hasReset = true ∧
      (present 0x2 1 0 0 0).request.isDefined = true ∧
      (∀ q ∈ [idleInputs, resetInputs].take (s.latency - 1), q.rst = false) ∧
      (∀ q ∈ [idleInputs, resetInputs].take s.latency, q.isDefined s.hasReset = true) := by decide

theorem witness_ResponseAppearsAfterLatency_none :
    let s := block .modified 2 [present 0x2 1 0 0 0, resetInputs]
    (∃ q ∈ [resetInputs].take (s.latency - 1), q.rst = true) ∧ (∃ t, run (s.latency + 1) s = .next t) ∧
      idleInputs.accepts s.hasReset = false := ⟨by decide, ⟨_, rfl⟩, by decide⟩

theorem witness_ResponsesRefineTransactions :
    ∀ p ∈ [present 0x2 1 0 0 0, present 0xA 0 0 0 0, resetInputs, idleInputs], p.isDefined (decide (0 < 2)) = true := by decide

theorem witness_ResponseIndependentOfOtherRequests :
    let s := block .modified 1 [present 0x2 1 0 0 0, present 0x3 5 0 0 0]
    let s' := loaded [present 0x2 1 0 0 0, idleInputs]
    s.mode = s'.mode ∧ s.latency = s'.latency ∧ (present 0x2 1 0 0 0).accepts s.hasReset = true ∧
      (present 0x2 1 0 0 0).accepts s'.hasReset = true ∧
      (∀ q ∈ [present 0x3 5 0 0 0].take (s.latency - 1), q.rst = false) ∧
      (∀ q ∈ [idleInputs].take (s.latency - 1), q.rst = false) ∧
      (∃ t, run (s.latency + 1) s = .next t) ∧ ∃ t', run (s.latency + 1) s' = .next t' :=
  ⟨rfl, by decide, by decide, by decide, by decide, by decide, ⟨_, rfl⟩, _, rfl⟩

theorem witness_DefinedInputsNeverFault : (loaded [present 0xF 1 2 3 4, resetInputs]).inputsDefined = true := by decide

theorem witness_LegalInputsGiveOnlyValues :
    (∀ p ∈ [present 0x9 1 2 3 4], p.isLegal (decide (0 < 0)) = true) ∧
      (outcomes 1 (block .modified 0 [present 0x9 1 2 3 4])).length = 1 := by decide

theorem witness_ResetEdgeClearsValidBits :
    (loaded [resetInputs]).inputs = resetInputs :: [] ∧ resetInputs.rst = true ∧ 0 < (loaded [resetInputs]).latency := by decide

theorem witness_ResetEdgeDiscardsRequestsInFlight :
    (1 ≤ (loaded [resetInputs]).latency) ∧ (∃ t, run 2 (loaded [resetInputs]) = .next t) ∧
      (loaded [resetInputs]).stages.getLast? = some ⟨true, 7, false⟩ ∧ ∃ t, step (loaded [resetInputs]) = .next t :=
  ⟨by decide, ⟨_, rfl⟩, rfl, _, rfl⟩

theorem witness_StepKeepsErrMeansIllegal :
    (loaded [present 0xA 0 0 0 0]).errMeansIllegal ∧ ∃ t, step (loaded [present 0xA 0 0 0 0]) = .next t := by
  refine ⟨⟨?_, ?_⟩, _, rfl⟩
  · decide
  · intro h
    cases h

/-- A session whose instance 0 steps and whose instance 1 faults. -/
theorem witness_SessionInstancesIndependent :
    let l : Session := [loaded [], block .modified 0 [.present holedOp]]
    l.sameMode .modified = true ∧ (1 : Nat) ≠ 0 ∧ (∃ t, l[0]? = some (loaded []) ∧ step (loaded []) = .next t) ∧
      ∃ s, l[1]? = some s ∧ ∀ t, step s ≠ .next t :=
  ⟨by decide, by decide, ⟨_, rfl, rfl⟩, _, rfl, nofun⟩

theorem witness_PseudoInstructionsExpand :
    (31#32 : Word).toNat < 32 ∧ ∃ b, assemble [] (asmLine none "ROTLI" [.literal 1, .literal 31]) = .ok b := ⟨by decide, _, rfl⟩

/-- A literal and a name the host holds: two operands are as many as MIXMOD reads, and not as many as REDUCE4 reads. -/
theorem witness_AssembledLinesEncodeOperands :
    (∃ r ∈ spelledRows, r.mnemonic = "MIXMOD" ∧ [AsmOperand.literal 1, .name ['h']].length = r.operands) ∧
      (∃ r ∈ spelledRows, r.mnemonic = "REDUCE4" ∧ [AsmOperand.literal 1, .name ['h']].length ≠ r.operands) ∧
      List.Forall₂ (StandsFor [(['h'], 5)]) [.literal 1, .name ['h']] [1, 5] :=
  ⟨⟨⟨"MIXMOD", 0x7, 2, fun a b _ _ => .mixmod (.of a) (.of b)⟩, by simp [spelledRows], rfl, rfl⟩,
    ⟨⟨"REDUCE4", 0x9, 4, fun a b c d => .reduce4 (.of a) (.of b) (.of c) (.of d)⟩, by simp [spelledRows], rfl, by decide⟩,
    .cons (.inl rfl) (.cons (.inr ⟨_, rfl, rfl⟩) .nil)⟩

end Sys2Proof.Tests
end

/-! ## Every step is one edge

What a step does to each part of the state, whichever edge it is: the lemmas about runs rest on these. -/

namespace Sys2Proof.Machine

section Step

variable {s t : State}

theorem dropInput_of_inputs_nil (h : s.inputs = []) : s.dropInput = s := by
  cases s
  simp_all [State.dropInput]

/-- What enters at an edge stands in the first stage after it (R22). -/
theorem clockEdge_first_stage {x : Stage} (h : 0 < s.latency) : (s.clockEdge x).stages[0]? = some x := by
  have hne : s.stages ≠ [] := List.length_pos_iff.mp h
  simp [List.getElem?_dropLast, hne]

/-- Every stage but the first takes over the content of the one before it (R22). -/
theorem clockEdge_next_stage {x : Stage} {k : Nat} (h : k + 1 < s.latency) :
    (s.clockEdge x).stages[k + 1]? = s.stages[k]? := by
  have hk : k + 1 < s.stages.length := h
  rw [State.clockEdge_stages, List.getElem?_dropLast, List.length_cons, Nat.add_sub_cancel, if_pos hk,
    List.getElem?_cons_succ]

/-- A step that ends in a next state uses up one entry of the inputs, and either shifts one stage in or is a reset edge
(R22, R78). -/
theorem step_next_edge (h : step s = .next t) :
    (∃ x, t = s.dropInput.clockEdge x) ∨
      ∃ p ps, s.inputs = p :: ps ∧ p.rst = true ∧ t = s.dropInput.resetEdge := by
  obtain ⟨p, ps, hin, he⟩ | ⟨hin, rfl⟩ := step_next h
  · obtain ⟨hrst, -, rfl⟩ | ⟨-, -, a, -, -, rfl⟩ | ⟨-, rfl⟩ := edgeWith_next he
    · exact .inr ⟨p, ps, hin, hrst, rfl⟩
    · exact .inl ⟨_, rfl⟩
    · exact .inl ⟨_, rfl⟩
  · exact .inl ⟨_, by rw [dropInput_of_inputs_nil hin]; rfl⟩

theorem step_keeps_mode (h : step s = .next t) : t.mode = s.mode := by
  obtain ⟨x, rfl⟩ | ⟨p, ps, -, -, rfl⟩ := step_next_edge h <;> simp

theorem step_keeps_latency (h : step s = .next t) : t.latency = s.latency := by
  obtain ⟨x, rfl⟩ | ⟨p, ps, -, -, rfl⟩ := step_next_edge h <;> simp

theorem step_inputs (h : step s = .next t) : t.inputs = s.inputs.drop 1 := by
  obtain ⟨x, rfl⟩ | ⟨p, ps, -, -, rfl⟩ := step_next_edge h <;> simp

/-- Every edge, a reset edge too, samples the last stage (R22, R79). -/
theorem step_samples_last_stage {x : Stage} (h : step s = .next t) (hx : s.stages.getLast? = some x) :
    t.rsp = .ofStage s.draws x := by
  obtain ⟨y, rfl⟩ | ⟨p, ps, -, -, rfl⟩ := step_next_edge h
  · simp [List.getLastD_eq_getLast?, hx]
  · simp [State.idleEdge, List.getLastD_eq_getLast?, hx]

/-- Without a reset, every stage but the last moves on by one place (R22, R23). -/
theorem step_moves_stage {k : Nat} (h : step s = .next t) (hrst : ∀ q ∈ s.inputs.take 1, q.rst = false)
    (hk : k + 1 < s.latency) : t.stages[k + 1]? = s.stages[k]? := by
  obtain ⟨x, rfl⟩ | ⟨p, ps, hin, hp, -⟩ := step_next_edge h
  · exact clockEdge_next_stage hk
  · simp [hin, hp] at hrst

/-- At an edge that accepts a request, the step accepts it on the state whose inputs for this edge are used up (R19). -/
theorem step_of_accepts {p : Inputs} {ps : List Inputs} (hin : s.inputs = p :: ps)
    (ha : p.accepts s.hasReset = true) : step s = acceptRequest p.request s.dropInput := by
  obtain ⟨hv, hr⟩ : p.reqValid = true ∧ (p.rst && s.hasReset) = false := by
    simpa only [Inputs.accepts, Bool.and_eq_true, Bool.not_eq_true'] using ha
  have hr' : (p.rst && s.dropInput.hasReset) = false := hr
  simp [step, hin, edgeWith, hr', hv]

end Step

/-! ## Invariants of runs -/

/-- What every step keeps, every run keeps. -/
theorem run_keeps {P : State → Prop} (hstep : ∀ {s t}, P s → step s = .next t → P t) {k : Nat} {s t : State}
    (hs : P s) (h : run k s = .next t) : P t := by
  induction k generalizing s with
  | zero => exact Host.Outcome.next.inj h ▸ hs
  | succ k ih =>
    obtain ⟨u, hu, hrun⟩ := run_succ_next.mp h
    exact ih (hstep hs hu) hrun

/-- Settles O33: each step keeps both, so every run does. -/
theorem runsKeepBuildParameters : Obligations.RunsKeepBuildParameters := by
  intro k s t h
  refine run_keeps (P := fun u => u.mode = s.mode ∧ u.latency = s.latency) ?_ ⟨rfl, rfl⟩ h
  rintro u v ⟨hmode, hlat⟩ hstep
  exact ⟨(step_keeps_mode hstep).trans hmode, (step_keeps_latency hstep).trans hlat⟩

/-! ## The answer to a request is fixed by the request and MODE -/

/-- Where `f` goes on in a state, it does so in every state with the same MODE, with one and the same answer: nothing
in flight and nothing else on the ports has a say in it (R11). -/
def AnswerFixedByMode (f : State → Result) : Prop :=
  ∀ s t, f s = .next t → ∃ a, ∀ s' : State, s'.mode = s.mode → f s' = .next (s'.respond a)

theorem AnswerFixedByMode.respond (a : Mode → Answer) :
    AnswerFixedByMode fun s => .next (s.respond (a s.mode)) := by
  intro s t _
  refine ⟨a s.mode, fun s' hm => ?_⟩
  simp only [hm]

theorem AnswerFixedByMode.withOperand {w : Nat} (x : Signal w) {k : BitVec w → State → Result}
    (hk : ∀ v, AnswerFixedByMode (k v)) : AnswerFixedByMode fun s => withOperand x fun v => k v s := by
  intro s t h
  obtain ⟨hx, hnext⟩ := withOperand_next h
  obtain ⟨a, ha⟩ := hk x.value s t hnext
  refine ⟨a, fun s' hm => ?_⟩
  calc Machine.withOperand x (fun v => k v s')
      = k x.value s' := by rw [eq_of_isDriven hx, withOperand_of]; rfl
    _ = .next (s'.respond a) := ha s' hm

theorem exec_answerFixedByMode (i : Instr) : AnswerFixedByMode (exec i) := by
  cases i with
  | rotl n c => exact .withOperand n fun n => .withOperand c fun c => .respond fun _ => .ok (rotl n c)
  | rotr n c => exact .withOperand n fun n => .withOperand c fun c => .respond fun _ => .ok (rotr n c)
  | clz x => exact .withOperand x fun x => .respond fun _ => .ok (clz x)
  | popcnt x => exact .withOperand x fun x => .respond fun _ => .ok (popcnt x)
  | mulhi x y => exact .withOperand x fun x => .withOperand y fun y => .respond fun _ => .ok (mulhi x y)
  | mix u v => exact .withOperand u fun u => .withOperand v fun v => .respond fun m => .ok (mixBy m u v)
  | mixref u v => exact .withOperand u fun u => .withOperand v fun v => .respond fun _ => .ok (mixRef u v)
  | mixmod u v => exact .withOperand u fun u => .withOperand v fun v => .respond fun _ => .ok (mixMod u v)
  | mix1a u v => exact .withOperand u fun u => .withOperand v fun v => .respond fun _ => .ok (mix1a u v)
  | reduce4 x y z w =>
    exact .withOperand x fun x => .withOperand y fun y => .withOperand z fun z => .withOperand w fun w =>
      .respond fun m => .ok (reduce4 m x y z w)
  | reserved101x low => exact .respond fun _ => .illegal
  | reserved11xx low => exact .respond fun _ => .illegal

theorem acceptRequest_of_decode {r : Request} {i : Instr} (h : decode r = .ok i) (s : State) :
    acceptRequest r s = exec i s := by
  simp [acceptRequest, h]

theorem acceptRequest_answerFixedByMode (r : Request) : AnswerFixedByMode (acceptRequest r) := by
  intro s t h
  obtain ⟨i, hi, hexec⟩ := acceptRequest_next h
  obtain ⟨a, ha⟩ := exec_answerFixedByMode i s t hexec
  exact ⟨a, fun s' hm => (acceptRequest_of_decode hi s').trans (ha s' hm)⟩

/-! ## A response travels to the port unchanged -/

/-- A response `j` stages before the last is sampled, unchanged, at the edge after the `j` next ones, unless one of
those is a reset edge (R22, R23, R79). -/
theorem run_samples_stage {j k : Nat} {s t : State} {w : Word} {e : Bool} (hx : s.stages[k]? = some ⟨true, w, e⟩)
    (hk : k + (j + 1) = s.latency) (hrst : ∀ q ∈ s.inputs.take j, q.rst = false)
    (h : run (j + 1) s = .next t) : t.rsp = ⟨true, w, e⟩ := by
  induction j generalizing s k with
  | zero =>
    obtain ⟨u, hu, hrun⟩ := run_succ_next.mp h
    obtain rfl : u = t := Host.Outcome.next.inj hrun
    have hlast : s.stages.getLast? = some ⟨true, w, e⟩ := by
      rw [List.getLast?_eq_getElem?, ← State.latency, ← hk]
      exact hx
    rw [step_samples_last_stage hu hlast, ofStage_valid]
  | succ j ih =>
    obtain ⟨u, hu, hrun⟩ := run_succ_next.mp h
    have hfirst : ∀ q ∈ s.inputs.take 1, q.rst = false :=
      fun q hq => hrst q (List.take_subset_take_left _ (by omega) hq)
    have hrest : ∀ q ∈ u.inputs.take j, q.rst = false := by
      intro q hq
      rw [step_inputs hu, List.take_drop] at hq
      exact hrst q (Nat.add_comm 1 j ▸ List.mem_of_mem_drop hq)
    have hmoved : u.stages[k + 1]? = some ⟨true, w, e⟩ := (step_moves_stage hu hfirst (by omega)).trans hx
    exact ih hmoved (by rw [step_keeps_latency hu]; omega) hrest hrun

/-- A request accepted with answer `a` is answered by `a` at the edge LATENCY later, for every LATENCY, 0 included,
unless a reset edge comes between (R21, R22, R79). -/
theorem run_samples_answer {s t : State} {a : Answer} (hstep : step s = .next (s.dropInput.respond a))
    (hrst : ∀ q ∈ (s.inputs.drop 1).take (s.latency - 1), q.rst = false) (h : run (s.latency + 1) s = .next t) :
    t.rsp = ⟨true, a.resultWord, a.errBit⟩ := by
  obtain ⟨u, hu, hrun⟩ := run_succ_next.mp h
  obtain rfl : s.dropInput.respond a = u := Host.Outcome.next.inj (hstep.symm.trans hu)
  rcases hn : s.latency with _ | n
  · rw [hn] at hrun
    obtain rfl : s.dropInput.respond a = t := Host.Outcome.next.inj hrun
    have hnil : s.stages = [] := List.eq_nil_of_length_eq_zero hn
    simp [State.respond, hnil]
  · rw [hn] at hrun hrst
    have hfirst : (s.dropInput.respond a).stages[0]? = some ⟨true, a.resultWord, a.errBit⟩ :=
      clockEdge_first_stage (by rw [State.dropInput_latency, hn]; exact n.succ_pos)
    exact run_samples_stage hfirst (by simp [State.respond, hn]) hrst hrun

/-- Where the first step of a run accepts a request, it shifts in an answer that the request and MODE fix. -/
theorem run_accepts_answer {k : Nat} {s t : State} {p : Inputs} {ps : List Inputs} (hin : s.inputs = p :: ps)
    (ha : p.accepts s.hasReset = true) (h : run (k + 1) s = .next t) :
    ∃ a, ∀ s' : State, s'.mode = s.mode → acceptRequest p.request s' = .next (s'.respond a) := by
  obtain ⟨u, hu, -⟩ := run_succ_next.mp h
  exact acceptRequest_answerFixedByMode p.request s.dropInput u (step_of_accepts hin ha ▸ hu)

/-- Settles O41: both pipelines shift in one and the same answer, and each samples it LATENCY edges later. -/
theorem responseIndependentOfOtherRequests : Obligations.ResponseIndependentOfOtherRequests := by
  intro s s' t t' p p' ps ps' hmode hlat hin hin' hreq ha ha' hrst hrst' h h'
  obtain ⟨a, hanswer⟩ := run_accepts_answer hin ha h
  have hstep : step s = .next (s.dropInput.respond a) := (step_of_accepts hin ha).trans (hanswer _ rfl)
  have hstep' : step s' = .next (s'.dropInput.respond a) :=
    (step_of_accepts hin' ha').trans (hreq ▸ hanswer _ hmode.symm)
  have hrsp := run_samples_answer hstep (by simpa [hin] using hrst) h
  have hrsp' := run_samples_answer hstep' (by simpa [hin', ← hlat] using hrst') (hlat ▸ h')
  exact ⟨by rw [hrsp], hrsp.trans hrsp'.symm⟩

end Sys2Proof.Machine

/-! ## The outcome of a decoded operation

`operationOutcome` says what an operation's request comes to, `respondTo` what the accepting edge makes of an outcome.
The block (`exec`) and the table of 30_encoding.md R42 (`transact`) are each tied to them once. -/

namespace Sys2Proof.Machine

/-- The outcome of a decoded operation on the fields it carries (R12, R20). -/
def operationOutcome (m : Mode) : Instr → Transaction
  | .rotl n c => onFields2 rotl n c
  | .rotr n c => onFields2 rotr n c
  | .clz x => onFields1 clz x
  | .popcnt x => onFields1 popcnt x
  | .mulhi x y => onFields2 mulhi x y
  | .mix u v => onFields2 (mixBy m) u v
  | .mixref u v => onFields2 mixRef u v
  | .mixmod u v => onFields2 mixMod u v
  | .mix1a u v => onFields2 mix1a u v
  | .reduce4 x y z w => onFields4 (reduce4 m) x y z w
  | .reserved101x _ => .fault .reservedOperationCode
  | .reserved11xx _ => .fault .reservedOperationCode

/-- The edge that accepts a request of outcome `o`: a reserved code is answered and the block goes on, an undriven bit
stops it (R64, R86; log 4, log 5). -/
def respondTo (o : Transaction) (s : State) : Result :=
  match o with
  | .next w => .next (s.respond (.ok w))
  | .fault .reservedOperationCode => .next (s.respond .illegal)
  | .fault f => .fault f
  | .refused e => .refused e

section Fields

variable {v w : Nat} (s : State)

theorem withOperand_respond (f : BitVec v → Word) (x : Signal v) :
    (withOperand x fun a => .next (s.respond (.ok (f a)))) = respondTo (onFields1 f x) s := by
  unfold withOperand onFields1
  cases x.read <;> rfl

theorem withOperand2_respond (f : BitVec v → BitVec w → Word) (x : Signal v) (y : Signal w) :
    (withOperand x fun a => withOperand y fun b => .next (s.respond (.ok (f a b)))) =
      respondTo (onFields2 f x y) s := by
  unfold withOperand onFields2
  cases x.read <;> cases y.read <;> rfl

theorem withOperand4_respond (f : Word → Word → Word → Word → Word) (x y z u : Signal 32) :
    (withOperand x fun a => withOperand y fun b => withOperand z fun c => withOperand u fun d =>
      .next (s.respond (.ok (f a b c d)))) = respondTo (onFields4 f x y z u) s := by
  unfold withOperand onFields4
  cases x.read <;> cases y.read <;> cases z.read <;> cases u.read <;> rfl

end Fields

/-- Every meaning is the edge of its operation's outcome. -/
theorem exec_eq_respondTo (i : Instr) (s : State) : exec i s = respondTo (operationOutcome s.mode i) s := by
  cases i with
  | rotl n c => exact withOperand2_respond s rotl n c
  | rotr n c => exact withOperand2_respond s rotr n c
  | clz x => exact withOperand_respond s clz x
  | popcnt x => exact withOperand_respond s popcnt x
  | mulhi x y => exact withOperand2_respond s mulhi x y
  | mix u v => exact withOperand2_respond s (mixBy s.mode) u v
  | mixref u v => exact withOperand2_respond s mixRef u v
  | mixmod u v => exact withOperand2_respond s mixMod u v
  | mix1a u v => exact withOperand2_respond s mix1a u v
  | reduce4 x y z w => exact withOperand4_respond s (reduce4 s.mode) x y z w
  | reserved101x low => rfl
  | reserved11xx low => rfl

theorem decode_of_read {r : Request} {op : OpCode} (h : r.op.read = some op) : decode r = .ok (decodeOp op r) := by
  simp [decode, h]

/-- An undriven bit in `req_op` is the one reason not to decode (R43, R86). -/
theorem decode_error_iff {r : Request} {e : DecodeError} : decode r = .error e ↔ r.op.isDriven = false := by
  cases e
  cases h : r.op.isDriven <;> simp [decode, Signal.read, h]

/-- A request decodes exactly where `req_op` carries a code, and to that code's operation (R43). -/
theorem decode_ok_iff {r : Request} {i : Instr} :
    decode r = .ok i ↔ ∃ op, r.op.read = some op ∧ decodeOp op r = i := by
  cases h : r.op.read <;> simp [decode, h]

/-- The decoder and the operation table agree, code by code (R42). -/
theorem transact_of_decode {m : Mode} {r : Request} {i : Instr} (h : decode r = .ok i) :
    transact m r = operationOutcome m i := by
  obtain ⟨op, hop, rfl⟩ := decode_ok_iff.mp h
  simp only [transact, hop]
  obtain ⟨k, hk⟩ := op
  interval_cases k <;> rfl

theorem transact_of_decode_error {m : Mode} {r : Request} {e : DecodeError} (h : decode r = .error e) :
    transact m r = .fault .undrivenOperationCode := by
  simp [transact, read_of_not_isDriven (decode_error_iff.mp h)]

theorem acceptRequest_of_decode_error {r : Request} {e : DecodeError} (h : decode r = .error e) (s : State) :
    acceptRequest r s = .fault .undrivenOperationCode := by
  cases e
  simp [acceptRequest, h]

/-- What the block does with a request is the edge of the request's outcome (R20). -/
theorem acceptRequest_eq_respondTo (r : Request) (s : State) : acceptRequest r s = respondTo (transact s.mode r) s := by
  cases h : decode r with
  | ok i => rw [acceptRequest_of_decode h, exec_eq_respondTo, transact_of_decode h]
  | error e => rw [acceptRequest_of_decode_error h, transact_of_decode_error h]; rfl

/-- Settles O22: both sides are the edge of the outcome of the request. -/
theorem responseIsTransactionOutcome : Obligations.ResponseIsTransactionOutcome := by
  intro r s
  rw [acceptRequest_eq_respondTo]
  rfl

/-- An accepting edge goes on for a value and for a reserved code only (R64, R86). -/
theorem respondTo_next {o : Transaction} {s t : State} (h : respondTo o s = .next t) :
    (∃ w, o = .next w ∧ t = s.respond (.ok w)) ∨
      (o = .fault .reservedOperationCode ∧ t = s.respond .illegal) := by
  cases o with
  | next w => exact .inl ⟨w, rfl, (Host.Outcome.next.inj h).symm⟩
  | fault f =>
    cases f with
    | reservedOperationCode => exact .inr ⟨rfl, (Host.Outcome.next.inj h).symm⟩
    | undrivenOperationCode => cases h
    | undrivenOperand => cases h
  | refused e => cases h

/-- An accepting edge that goes on shifts in the response that the port is to show for the outcome (R20, R64). -/
theorem respondTo_next_port {o : Transaction} {s t : State} (h : respondTo o s = .next t) :
    ∃ a : Answer, t = s.respond a ∧ portFor o = some ⟨true, a.resultWord, a.errBit⟩ := by
  obtain ⟨w, rfl, rfl⟩ | ⟨rfl, rfl⟩ := respondTo_next h
  · exact ⟨.ok w, rfl, rfl⟩
  · exact ⟨.illegal, rfl, rfl⟩

/-- The host concludes from the port the outcome the port was driven for (R64, R65). -/
theorem outcome_of_portFor {o : Transaction} {p : RspPort} (h : some p = portFor o) : p.outcome = some o := by
  cases o with
  | next w => cases h; rfl
  | fault f =>
    cases f with
    | reservedOperationCode => cases h; rfl
    | undrivenOperationCode => cases h
    | undrivenOperand => cases h
  | refused e => cases h

theorem outcome_of_not_rspValid {p : RspPort} (h : p.rspValid = false) : p.outcome = none := by
  simp [RspPort.outcome, h]

/-- Settles O49: the three readings of the port, by definition. -/
theorem portOutcomes : Obligations.PortOutcomes := fun _ _ => ⟨rfl, rfl, rfl⟩

/-! ## Reserved codes -/

/-- The codes 0xA to 0xF select the two reserved rows (R45). -/
theorem decodeOp_of_reserved {op : OpCode} (h : 10 ≤ op.toNat) (r : Request) :
    decodeOp op r = .reserved101x (op.extractLsb' 0 1) ∨ decodeOp op r = .reserved11xx (op.extractLsb' 0 2) := by
  unfold decodeOp
  split
  case h_11 | h_12 => exact .inl rfl
  case h_13 => exact .inr rfl
  all_goals omega

/-- Settles O18: the reserved rows answer the illegal response, and their outcome is the fault. -/
theorem reservedCodesAnswerIllegal : Obligations.ReservedCodesAnswerIllegal := by
  intro s r op hop hr
  have hdecode : decode r = .ok (decodeOp op r) := decode_of_read (by rw [hr, read_of])
  have hrow := decodeOp_of_reserved hop r
  refine ⟨⟨decodeOp op r, hdecode, hrow, ?_⟩, fun m => ?_, ?_⟩
  · obtain h | h := hrow <;> rw [h] <;> rfl
  · rw [transact_of_decode hdecode]
    obtain h | h := hrow <;> rw [h] <;> rfl
  · simp [Request.isLegal, isReservedCode, hr, Signal.of, hop]

/-! ## MODE -/

/-- The table of R42 takes MODE into its rows 0x5 and 0x9 only (R44). -/
theorem transact_mode_irrel {r : Request} (hmix : r.op.value ≠ 0x5) (hreduce : r.op.value ≠ 0x9) (m m' : Mode) :
    transact m r = transact m' r := by
  cases h : r.op.isDriven with
  | true =>
    have hread : r.op.read = some r.op.value := by simp [Signal.read, h]
    simp only [transact, hread, if_neg hmix, if_neg hreduce]
  | false => simp [transact, read_of_not_isDriven h]

/-- Only MIX and REDUCE4 have an outcome that reads MODE (R44). -/
theorem operationOutcome_mode_irrel {i : Instr} (hmix : i.opcode ≠ 0x5) (hreduce : i.opcode ≠ 0x9) (m m' : Mode) :
    operationOutcome m i = operationOutcome m' i := by
  cases i with
  | mix u v => exact absurd rfl hmix
  | reduce4 x y z w => exact absurd rfl hreduce
  | _ => rfl

/-- The edge of an outcome carries MODE along unread. -/
theorem respondTo_withMode {o : Transaction} {s t : State} (m : Mode) (h : respondTo o s = .next t) :
    respondTo o { s with mode := m } = .next { t with mode := m } := by
  obtain ⟨w, rfl, rfl⟩ | ⟨rfl, rfl⟩ := respondTo_next h <;> rfl

/-- Settles O31: MODE is read in the outcome of an operation, and only in two rows of it. -/
theorem onlyMixAndReduce4ReadMode : Obligations.OnlyMixAndReduce4ReadMode := by
  refine ⟨fun m m' r hmix hreduce => transact_mode_irrel hmix hreduce m m', fun i s t m hmix hreduce h => ?_,
    fun u v => ⟨rfl, rfl⟩, fun m x y z w => rfl⟩
  rw [exec_eq_respondTo] at h ⊢
  rw [operationOutcome_mode_irrel hmix hreduce m s.mode]
  exact respondTo_withMode m h

/-! ## The three kinds of step -/

theorem State.hasReset_eq (s : State) : s.hasReset = decide (0 < s.latency) := by
  cases h : s.stages <;> simp [State.hasReset, State.latency, h]

/-- Settles O34: it is `step_of_accepts`, on the two outcomes of decoding. -/
theorem stepRunsDecodedOperation : Obligations.StepRunsDecodedOperation := by
  intro s p ps hin ha
  have hstep := step_of_accepts hin ha
  refine ⟨by simp [State.dropInput, hin], hstep, fun i hi => ?_, fun hop => ?_⟩
  · rw [hstep, acceptRequest_of_decode hi]
  · rw [hstep, acceptRequest_of_decode_error (e := .undrivenOperationCode) (decode_error_iff.mpr hop)]

/-- Settles O35: the three branches of an edge that accepts nothing. -/
theorem stepWithoutRequest : Obligations.StepWithoutRequest := by
  refine fun s => ⟨fun p ps hin hrst hport => ?_, fun p ps hin hrst hreq => ?_, fun hin => ?_⟩
  · have hport' : s.dropInput.hasReset = true := hport
    simp [step, hin, edgeWith, hrst, hport']
  · have hrst' : (p.rst && s.dropInput.hasReset) = false := hrst
    simp [step, hin, edgeWith, hrst', hreq]
  · simp [step, hin]

/-- A step that ends in a next state accepted a request, or was an idle or a reset edge (R19). -/
theorem step_next_kind {s t : State} (h : step s = .next t) :
    (∃ p ps a, s.inputs = p :: ps ∧ p.accepts s.hasReset = true ∧ t = s.dropInput.respond a) ∨
      t = s.dropInput.idleEdge ∨ t = s.dropInput.resetEdge := by
  obtain ⟨p, ps, hin, he⟩ | ⟨hin, rfl⟩ := step_next h
  · obtain ⟨-, -, rfl⟩ | ⟨ha, -, a, -, -, rfl⟩ | ⟨-, rfl⟩ := edgeWith_next he
    · exact .inr (.inr rfl)
    · exact .inl ⟨p, ps, a, hin, ha, rfl⟩
    · exact .inr (.inl rfl)
  · exact .inr (.inl (by rw [dropInput_of_inputs_nil hin]))

/-- A step with no request accepted is an idle or a reset edge. -/
theorem step_next_of_not_accepts {s t : State} {p : Inputs} {ps : List Inputs} (hin : s.inputs = p :: ps)
    (ha : p.accepts s.hasReset = false) (h : step s = .next t) :
    t = s.dropInput.idleEdge ∨ t = s.dropInput.resetEdge := by
  obtain ⟨q, qs, -, hin', ha', -⟩ | hother := step_next_kind h
  · obtain ⟨rfl, -⟩ := List.cons.inj (hin.symm.trans hin')
    simp [ha] at ha'
  · exact hother

theorem step_keeps_hasReset {s t : State} (h : step s = .next t) : t.hasReset = s.hasReset := by
  rw [State.hasReset_eq, State.hasReset_eq, step_keeps_latency h]

/-- Settles O36: the edge is `clockEdge`, whose frame is said field by field. -/
theorem acceptingEdgeFrame : Obligations.AcceptingEdgeFrame := by
  intro i s t h
  obtain ⟨a, rfl⟩ := exec_next h
  refine ⟨rfl, rfl, State.clockEdge_latency _ _, fun k hk => clockEdge_next_stage hk, fun x hx hv => ?_,
    fun x hx hv => ?_⟩
  · simp [State.respond, List.getLastD_eq_getLast?, hx, RspPort.ofStage, hv]
  · simp [State.respond, List.getLastD_eq_getLast?, hx, hv]

/-- Settles O37: what a step samples is the last stage, which is what the port showed. -/
theorem edgeSamplesOutputsOfCycle : Obligations.EdgeSamplesOutputsOfCycle := by
  intro s t hlat h
  have hlast := List.getLast?_eq_some_getLast (List.length_pos_iff.mp hlat)
  rw [step_samples_last_stage h hlast, State.outputs, hlast]

/-! ## The invariant: `err` = 1 only with `result` = 0 -/

/-- Every answer is a response with `err` = 1 only where `result` = 0 (R20, R64). -/
theorem Answer.errMeansIllegal (a : Answer) (h : a.errBit = true) : a.resultWord = 0x00000000 := by
  cases a with
  | ok w => cases h
  | illegal => rfl

/-- A stage is sampled as it is, so the port keeps what the stage has. -/
theorem ofStage_errMeansIllegal {draw : Nat} {x : Stage}
    (hx : x.valid = true → x.err = true → x.result = 0x00000000) :
    (RspPort.ofStage draw x).rspValid = true → (RspPort.ofStage draw x).err = true →
      (RspPort.ofStage draw x).result = 0x00000000 := by
  rw [ofStage_rspValid]
  intro hv
  simpa [RspPort.ofStage, hv] using hx hv

/-- An edge that shifts in a stage with the property keeps the invariant: every stage after it, and the one it samples,
is the entering one or one that was there. -/
theorem clockEdge_keeps_errMeansIllegal {s : State} {x : Stage} (hs : s.errMeansIllegal)
    (hx : x.valid = true → x.err = true → x.result = 0x00000000) : (s.clockEdge x).errMeansIllegal := by
  obtain ⟨hstages, -⟩ := hs
  have hall : ∀ y ∈ x :: s.stages, y.valid = true → y.err = true → y.result = 0x00000000 :=
    List.forall_mem_cons.mpr ⟨hx, hstages⟩
  refine ⟨fun y hy => hall y (List.mem_of_mem_dropLast hy), ofStage_errMeansIllegal (hall _ ?_)⟩
  rw [← List.getLast_eq_getLastD (List.cons_ne_nil x s.stages)]
  exact List.getLast_mem _

theorem idleEdge_keeps_errMeansIllegal {s : State} (hs : s.errMeansIllegal) : s.idleEdge.errMeansIllegal :=
  clockEdge_keeps_errMeansIllegal hs nofun

theorem clearedStages_errMeansIllegal (draw n : Nat) :
    ∀ x ∈ clearedStages draw n, x.valid = true → x.err = true → x.result = 0x00000000 := by
  intro x hx hv
  simp [clearedStages_empty x hx] at hv

/-- Settles O47: an answer, an empty stage and the cleared stages all have the property, and every other stage was
there before. -/
theorem stepKeepsErrMeansIllegal : Obligations.StepKeepsErrMeansIllegal := by
  intro s t hs h
  have hdrop : s.dropInput.errMeansIllegal := hs
  obtain ⟨-, -, a, -, -, rfl⟩ | rfl | rfl := step_next_kind h
  · exact clockEdge_keeps_errMeansIllegal hdrop fun _ => a.errMeansIllegal
  · exact idleEdge_keeps_errMeansIllegal hdrop
  · obtain ⟨-, hrsp⟩ := idleEdge_keeps_errMeansIllegal hdrop
    exact ⟨clearedStages_errMeansIllegal _ _, hrsp⟩

theorem built_errMeansIllegal (m : Mode) (n : Nat) : (State.built m n).errMeansIllegal :=
  ⟨clearedStages_errMeansIllegal 0 n, nofun⟩

/-- Settles O48: after reset no stage is valid and `rsp_valid` is 0. -/
theorem resetStateErrMeansIllegal : Obligations.ResetStateErrMeansIllegal :=
  ⟨built_errMeansIllegal, built_errMeansIllegal _ _⟩

@[simp] theorem built_latency (m : Mode) (n : Nat) : (State.built m n).latency = n := clearedStages_length 0 n

/-- Settles O44: the stages after reset are the cleared ones. -/
theorem stateAfterReset : Obligations.StateAfterReset :=
  ⟨fun m n => ⟨rfl, built_latency m n, fun x hx => clearedStages_empty x hx, rfl, rfl⟩, rfl⟩

/-! ## Defined requests never stop the block -/

theorem withOperand_goes_on {w : Nat} {x : Signal w} {k : BitVec w → Result} (hx : x.isDriven = true)
    (hk : ∃ t, k x.value = .next t) : ∃ t, withOperand x k = .next t := by
  obtain ⟨-, h⟩ | ⟨hf, -⟩ := withOperand_cases x k
  · exact h ▸ hk
  · simp [hx] at hf

theorem withOperand2_goes_on {v w : Nat} {x : Signal v} {y : Signal w} {f : BitVec v → BitVec w → State}
    (h : (x.isDriven && y.isDriven) = true) :
    ∃ t, (withOperand x fun a => withOperand y fun b => .next (f a b)) = .next t := by
  obtain ⟨hx, hy⟩ := Bool.and_eq_true_iff.mp h
  exact withOperand_goes_on hx (withOperand_goes_on hy ⟨_, rfl⟩)

theorem exec_of_wellFormed {i : Instr} (h : i.wellFormed = true) (s : State) : ∃ t, exec i s = .next t := by
  cases i with
  | rotl n c => exact withOperand2_goes_on h
  | rotr n c => exact withOperand2_goes_on h
  | clz x => exact withOperand_goes_on h ⟨_, rfl⟩
  | popcnt x => exact withOperand_goes_on h ⟨_, rfl⟩
  | mulhi x y => exact withOperand2_goes_on h
  | mix u v => exact withOperand2_goes_on h
  | mixref u v => exact withOperand2_goes_on h
  | mixmod u v => exact withOperand2_goes_on h
  | mix1a u v => exact withOperand2_goes_on h
  | reduce4 x y z w =>
    obtain ⟨hxyz, hw⟩ := Bool.and_eq_true_iff.mp h
    obtain ⟨hxy, hz⟩ := Bool.and_eq_true_iff.mp hxyz
    obtain ⟨hx, hy⟩ := Bool.and_eq_true_iff.mp hxy
    exact withOperand_goes_on hx (withOperand_goes_on hy (withOperand_goes_on hz (withOperand_goes_on hw ⟨_, rfl⟩)))
  | reserved101x low => exact ⟨_, rfl⟩
  | reserved11xx low => exact ⟨_, rfl⟩

/-- A request is defined where it decodes to an operation whose fields are driven (R86). -/
theorem isDefined_iff {r : Request} : r.isDefined = true ↔ ∃ i, decode r = .ok i ∧ i.wellFormed = true := by
  cases h : decode r <;> simp [Request.isDefined, h]

theorem acceptRequest_of_isDefined {r : Request} (h : r.isDefined = true) (s : State) :
    ∃ t, acceptRequest r s = .next t := by
  obtain ⟨i, hi, hwf⟩ := isDefined_iff.mp h
  rw [acceptRequest_of_decode hi]
  exact exec_of_wellFormed hwf s

/-- A step ends in a next state where the next port values ask for nothing undefined (R86). -/
theorem step_of_isDefined {s : State} (h : ∀ q ∈ s.inputs.take 1, q.isDefined s.hasReset = true) :
    ∃ t, step s = .next t := by
  obtain ⟨hreset, hidle, hnone⟩ := stepWithoutRequest s
  rcases hin : s.inputs with _ | ⟨p, ps⟩
  · exact ⟨_, hnone hin⟩
  have hp : p.isDefined s.hasReset = true := h p (by simp [hin])
  by_cases ha : p.accepts s.hasReset = true
  · rw [step_of_accepts hin ha]
    exact acceptRequest_of_isDefined (by simpa [Inputs.isDefined, ha] using hp) _
  · cases hr : p.rst && s.hasReset with
    | true =>
      obtain ⟨hrst, hport⟩ := Bool.and_eq_true_iff.mp hr
      exact ⟨_, hreset p ps hin hrst hport⟩
    | false => exact ⟨_, hidle p ps hin hr (by simpa [Inputs.accepts, hr] using ha)⟩

/-- A run ends in a next state where the port values it uses up ask for nothing undefined (R86). -/
theorem run_of_isDefined {k : Nat} {s : State} (h : ∀ q ∈ s.inputs.take k, q.isDefined s.hasReset = true) :
    ∃ t, run k s = .next t := by
  induction k generalizing s with
  | zero => exact ⟨s, rfl⟩
  | succ k ih =>
    obtain ⟨u, hu⟩ := step_of_isDefined fun q hq => h q (List.take_subset_take_left _ (by omega) hq)
    have hrest : ∀ q ∈ u.inputs.take k, q.isDefined u.hasReset = true := by
      intro q hq
      rw [step_inputs hu, List.take_drop] at hq
      rw [step_keeps_hasReset hu]
      exact h q (Nat.add_comm 1 k ▸ List.mem_of_mem_drop hq)
    obtain ⟨t, ht⟩ := ih hrest
    exact ⟨t, run_succ_next.mpr ⟨u, hu, ht⟩⟩

/-! ## An empty stage travels to the port empty -/

/-- Stage `k` holds no request, or there is no such stage. -/
def State.EmptyAt (s : State) (k : Nat) : Prop := ∀ x, s.stages[k]? = some x → x.valid = false

theorem resetEdge_emptyAt (s : State) (k : Nat) : s.resetEdge.EmptyAt k :=
  fun x hx => clearedStages_empty x (List.mem_of_getElem? hx)

theorem built_emptyAt (m : Mode) (n k : Nat) : (State.built m n).EmptyAt k :=
  fun x hx => clearedStages_empty x (List.mem_of_getElem? hx)

theorem idleEdge_emptyAt_zero (s : State) : s.idleEdge.EmptyAt 0 := by
  intro x hx
  have h0 : 0 < s.latency := by
    obtain ⟨hlt, -⟩ := List.getElem?_eq_some_iff.mp hx
    exact (State.clockEdge_latency s _) ▸ hlt
  obtain rfl := Option.some.inj ((clockEdge_first_stage h0).symm.trans hx)
  rfl

/-- With a reset or without, what follows an empty stage is empty at the next edge (R22, R78). -/
theorem step_moves_emptyAt {k : Nat} {s t : State} (h : step s = .next t) (hs : s.EmptyAt k)
    (hk : k + 1 < s.latency) : t.EmptyAt (k + 1) := by
  obtain ⟨y, rfl⟩ | ⟨p, ps, -, -, rfl⟩ := step_next_edge h
  · intro x hx
    exact hs x ((clockEdge_next_stage hk).symm.trans hx)
  · exact resetEdge_emptyAt _ _

/-- A reset edge at the head of the port values empties every stage (R78). -/
theorem step_emptyAt_of_rst {s t : State} {p : Inputs} {ps : List Inputs} (hin : s.inputs = p :: ps)
    (hrst : p.rst = true) (hlat : 0 < s.latency) (h : step s = .next t) (k : Nat) : t.EmptyAt k := by
  obtain ⟨hreset, -, -⟩ := stepWithoutRequest s
  have hport : s.hasReset = true := by simp [State.hasReset_eq, hlat]
  obtain rfl := Host.Outcome.next.inj ((hreset p ps hin hrst hport).symm.trans h)
  exact resetEdge_emptyAt _ k

/-- Nothing is sampled from a place `j` stages before the last that is empty, or that a reset edge empties on the way
(R25, R79). -/
theorem run_samples_nothing {j k : Nat} {s t : State} (hk : k + (j + 1) = s.latency)
    (hempty : s.EmptyAt k ∨ ∃ q ∈ s.inputs.take j, q.rst = true) (h : run (j + 1) s = .next t) :
    t.rsp.rspValid = false := by
  induction j generalizing s k with
  | zero =>
    obtain ⟨u, hu, hrun⟩ := run_succ_next.mp h
    obtain rfl : u = t := Host.Outcome.next.inj hrun
    have hs : s.EmptyAt k := hempty.resolve_right (by simp)
    have hklt : k < s.stages.length := by rw [← State.latency]; omega
    have hlast : s.stages.getLast? = some s.stages[k] := by
      rw [List.getLast?_eq_getElem?, ← State.latency, ← hk]
      exact List.getElem?_eq_getElem hklt
    rw [step_samples_last_stage hu hlast, ofStage_rspValid]
    exact hs _ (List.getElem?_eq_getElem hklt)
  | succ j ih =>
    obtain ⟨u, hu, hrun⟩ := run_succ_next.mp h
    have hk' : k + 1 + (j + 1) = u.latency := by rw [step_keeps_latency hu]; omega
    refine ih hk' ?_ hrun
    obtain hs | ⟨q, hq, hrst⟩ := hempty
    · exact .inl (step_moves_emptyAt hu hs (by omega))
    · rcases hin : s.inputs with _ | ⟨p, ps⟩
      · simp [hin] at hq
      rw [hin, List.take_succ_cons] at hq
      obtain rfl | hq := List.mem_cons.mp hq
      · exact .inl (step_emptyAt_of_rst hin hrst (by omega) hu (k + 1))
      · exact .inr ⟨q, by simpa [step_inputs hu, hin] using hq, hrst⟩

/-- A step that accepts no request lets nothing into the first stage. -/
theorem step_emptyAt_zero_of_not_accepts {s t : State} {p : Inputs} {ps : List Inputs} (hin : s.inputs = p :: ps)
    (ha : p.accepts s.hasReset = false) (h : step s = .next t) : t.EmptyAt 0 := by
  obtain rfl | rfl := step_next_of_not_accepts hin ha h
  · exact idleEdge_emptyAt_zero _
  · exact resetEdge_emptyAt _ 0

/-- With no stage, a step that accepts no request samples no response (R21). -/
theorem step_samples_nothing_of_not_accepts {s t : State} {p : Inputs} {ps : List Inputs} (hin : s.inputs = p :: ps)
    (ha : p.accepts s.hasReset = false) (hlat : s.latency = 0) (h : step s = .next t) : t.rsp.rspValid = false := by
  have hidle : s.dropInput.idleEdge.rsp.rspValid = false := by
    simp [State.idleEdge, List.eq_nil_of_length_eq_zero hlat]
  obtain rfl | rfl := step_next_of_not_accepts hin ha h <;> exact hidle

/-! ## What the host samples LATENCY edges later -/

section Run

variable {s t : State} {p : Inputs} {ps : List Inputs}

/-- The answer to an accepted request is that of its outcome, for every LATENCY (R20, R21, R22). -/
theorem run_samples_transaction (hin : s.inputs = p :: ps) (ha : p.accepts s.hasReset = true)
    (hrst : ∀ q ∈ ps.take (s.latency - 1), q.rst = false) (h : run (s.latency + 1) s = .next t) :
    some t.rsp = portFor (transact s.mode p.request) := by
  obtain ⟨u, hu, -⟩ := run_succ_next.mp h
  have hedge : respondTo (transact s.mode p.request) s.dropInput = .next u :=
    (acceptRequest_eq_respondTo p.request s.dropInput).symm.trans ((step_of_accepts hin ha).symm.trans hu)
  obtain ⟨a, rfl, hport⟩ := respondTo_next_port hedge
  rw [hport, run_samples_answer hu (by simpa [hin] using hrst) h]

/-- Where no request was accepted, or a reset edge discarded it, nothing is sampled (R25, R79). -/
theorem run_samples_nothing_of_not_delivered (hin : s.inputs = p :: ps)
    (hnot : p.accepts s.hasReset = false ∨ ∃ q ∈ ps.take (s.latency - 1), q.rst = true)
    (h : run (s.latency + 1) s = .next t) : t.rsp.rspValid = false := by
  obtain ⟨u, hu, hrun⟩ := run_succ_next.mp h
  rcases hn : s.latency with _ | n
  · rw [hn] at hrun hnot
    obtain rfl : u = t := Host.Outcome.next.inj hrun
    exact step_samples_nothing_of_not_accepts hin (hnot.resolve_right (by simp)) hn hu
  · rw [hn] at hrun hnot
    have hinputs : u.inputs = ps := by simp [step_inputs hu, hin]
    refine run_samples_nothing (k := 0) (by rw [step_keeps_latency hu]; omega) ?_ hrun
    obtain ha | hq := hnot
    · exact .inl (step_emptyAt_zero_of_not_accepts hin ha hu)
    · exact .inr (hinputs ▸ hq)

theorem rspValid_of_portFor {o : Transaction} {x : RspPort} (h : some x = portFor o) : x.rspValid = true := by
  by_contra hv
  have hnone := outcome_of_not_rspValid (Bool.eq_false_iff.mpr hv)
  simp [outcome_of_portFor h] at hnone

end Run

/-- Settles O38: the two facts about runs, at LATENCY = 0. -/
theorem combinationalResponse : Obligations.CombinationalResponse := by
  intro s t p ps hlat hin h
  have hrun : run (s.latency + 1) s = .next t := by
    rw [hlat]
    exact run_succ_next.mpr ⟨t, h, rfl⟩
  have haccepts : p.accepts s.hasReset = p.reqValid := by simp [Inputs.accepts, State.hasReset_eq, hlat]
  cases hv : p.reqValid with
  | true =>
    have hport := run_samples_transaction hin (haccepts.trans hv) (by simp [hlat]) hrun
    exact ⟨rspValid_of_portFor hport, fun _ => hport⟩
  | false => exact ⟨run_samples_nothing_of_not_delivered hin (.inl (haccepts.trans hv)) hrun, nofun⟩

/-- Settles O39: the run goes on because the inputs are defined, and samples what the two facts about runs say. -/
theorem responseAppearsAfterLatency : Obligations.ResponseAppearsAfterLatency := by
  intro s p ps hin
  refine ⟨fun ha hreq hrst hdef => ?_, fun t hnot h => run_samples_nothing_of_not_delivered hin hnot h⟩
  have hp : p.isDefined s.hasReset = true := by simp [Inputs.isDefined, hreq]
  have hall : ∀ q ∈ s.inputs.take (s.latency + 1), q.isDefined s.hasReset = true := by
    rw [hin, List.take_succ_cons]
    exact List.forall_mem_cons.mpr ⟨hp, hdef⟩
  obtain ⟨t, ht⟩ := run_of_isDefined hall
  exact ⟨t, ht, run_samples_transaction hin ha hrst ht⟩

/-! ## The pipeline refines the transaction level -/

theorem sampled_of_step {s t : State} (k : Nat) (h : step s = .next t) : sampled (k + 1) s = t.rsp :: sampled k t := by
  simp [sampled, h]

theorem sampled_of_not_step {s : State} (k : Nat) (h : ∀ t, step s ≠ .next t) : sampled k s = [] := by
  cases k with
  | zero => rfl
  | succ k =>
    cases hs : step s with
    | next t => exact absurd hs (h t)
    | fault f => simp [sampled, hs]
    | refused e => simp [sampled, hs]

theorem sampled_length_le (k : Nat) (s : State) : (sampled k s).length ≤ k := by
  induction k generalizing s with
  | zero => exact Nat.le_refl 0
  | succ k ih =>
    by_cases h : ∃ t, step s = .next t
    · obtain ⟨t, ht⟩ := h
      rw [sampled_of_step k ht]
      exact Nat.succ_le_succ (ih t)
    · simp [sampled_of_not_step (k + 1) (not_exists.mp h)]

/-- What is sampled at edge `j` is the port recorded at the end of the run of `j + 1` edges. -/
theorem sampled_getElem?_eq_some {j k : Nat} {s : State} {x : RspPort} :
    (sampled k s)[j]? = some x ↔ j < k ∧ ∃ t, run (j + 1) s = .next t ∧ t.rsp = x := by
  induction k generalizing j s with
  | zero => simp [sampled]
  | succ k ih =>
    by_cases h : ∃ u, step s = .next u
    · obtain ⟨u, hu⟩ := h
      rw [sampled_of_step k hu]
      cases j with
      | zero => simp [run, hu]
      | succ j =>
        have hrun : ∀ t, run (j + 1 + 1) s = .next t ↔ run (j + 1) u = .next t := fun t => by
          simp [run_succ_next (k := j + 1), hu]
        simp [ih, hrun]
    · have hrun : ∀ t, run (j + 1) s ≠ .next t := fun t ht =>
        have ⟨u, hu, _⟩ := run_succ_next.mp ht
        h ⟨u, hu⟩
      simp [sampled_of_not_step (k + 1) (not_exists.mp h), hrun]

/-- The request on the first of `p :: ps` gets a response from a block with LATENCY = `n`: it is accepted, and no reset
edge discards it (R19, R79). -/
def delivers (n : Nat) (p : Inputs) (ps : List Inputs) : Bool :=
  p.accepts (decide (0 < n)) && !(ps.take (n - 1)).any Inputs.rst

theorem deliveredRequests_cons (n : Nat) (p : Inputs) (ps : List Inputs) :
    deliveredRequests n (p :: ps) =
      (if delivers n p ps then some p.request else none).toList ++ deliveredRequests n ps := by
  rw [deliveredRequests]
  unfold delivers
  split <;> rfl

/-- The host concludes the outcome of a delivered request, and nothing of another, LATENCY edges later. -/
theorem run_outcome {s t : State} {p : Inputs} {ps : List Inputs} (hin : s.inputs = p :: ps)
    (h : run (s.latency + 1) s = .next t) :
    t.rsp.outcome = (if delivers s.latency p ps then some p.request else none).map (transact s.mode) := by
  cases hd : delivers s.latency p ps with
  | true =>
    obtain ⟨ha, hrst⟩ : p.accepts s.hasReset = true ∧ ∀ q ∈ ps.take (s.latency - 1), q.rst = false := by
      simpa [delivers, ← State.hasReset_eq] using hd
    exact outcome_of_portFor (run_samples_transaction hin ha hrst h)
  | false =>
    have hnot : p.accepts s.hasReset = false ∨ ∃ q ∈ ps.take (s.latency - 1), q.rst = true := by
      simpa [delivers, ← State.hasReset_eq, Classical.or_iff_not_imp_left] using hd
    exact outcome_of_not_rspValid (run_samples_nothing_of_not_delivered hin hnot h)

/-- From any state, what the host concludes from edge LATENCY on is what the requests placed come to. -/
theorem sampled_drop_latency (ps : List Inputs) (s : State) (hin : s.inputs = ps)
    (hdef : ∀ q ∈ ps, q.isDefined s.hasReset = true) :
    ((sampled (ps.length + s.latency) s).drop s.latency).filterMap RspPort.outcome =
      (deliveredRequests s.latency ps).map (transact s.mode) := by
  induction ps generalizing s with
  | nil =>
    rw [List.drop_eq_nil_of_le ((sampled_length_le _ s).trans (by simp))]
    rfl
  | cons p ps ih =>
    obtain ⟨t, ht⟩ := run_of_isDefined fun q hq => hdef q (hin ▸ List.mem_of_mem_take (i := s.latency + 1) hq)
    obtain ⟨u, hu, -⟩ := run_succ_next.mp ht
    have hrest := ih u (by simp [step_inputs hu, hin])
      fun q hq => step_keeps_hasReset hu ▸ hdef q (List.mem_cons_of_mem p hq)
    rw [step_keeps_latency hu, step_keeps_mode hu] at hrest
    have hlen : (p :: ps).length + s.latency = ps.length + s.latency + 1 := by simp only [List.length_cons]; omega
    have hport : (sampled ((p :: ps).length + s.latency) s)[s.latency]? = some t.rsp :=
      sampled_getElem?_eq_some.mpr ⟨by omega, t, ht, rfl⟩
    rw [List.drop_eq_getElem?_toList_append, hport, hlen, sampled_of_step _ hu, List.drop_succ_cons,
      List.filterMap_append, hrest, deliveredRequests_cons, List.map_append]
    congr 1
    rw [Option.toList_some, List.filterMap_cons, List.filterMap_nil, run_outcome hin ht]
    cases (if delivers s.latency p ps then some p.request else none : Option Request) <;> rfl

/-- While the pipeline holds only empty stages, the first LATENCY edges sample nothing (R25). -/
theorem sampled_take_latency {s : State} (hempty : ∀ k, s.EmptyAt k) (k : Nat) :
    ((sampled k s).take s.latency).filterMap RspPort.outcome = [] := by
  refine List.filterMap_eq_nil_iff.mpr fun x hx => ?_
  obtain ⟨j, hj⟩ := List.mem_iff_getElem?.mp hx
  rw [List.getElem?_take, Option.ite_none_right_eq_some] at hj
  obtain ⟨hlt, hj⟩ := hj
  obtain ⟨-, t, ht, rfl⟩ := sampled_getElem?_eq_some.mp hj
  exact outcome_of_not_rspValid
    (run_samples_nothing (k := s.latency - (j + 1)) (by omega) (.inl (hempty _)) ht)

/-- From an empty pipeline, the host concludes the outcomes of the delivered requests, and nothing else. -/
theorem outcomes_of_empty {s : State} (hempty : ∀ k, s.EmptyAt k)
    (hdef : ∀ q ∈ s.inputs, q.isDefined s.hasReset = true) :
    outcomes (s.inputs.length + s.latency) s = (deliveredRequests s.latency s.inputs).map (transact s.mode) := by
  rw [outcomes, ← List.take_append_drop s.latency (sampled _ s), List.filterMap_append,
    sampled_take_latency hempty, sampled_drop_latency s.inputs s rfl hdef, List.nil_append]

/-- Settles O40: the state after reset has an empty pipeline. -/
theorem responsesRefineTransactions : Obligations.ResponsesRefineTransactions := by
  intro m n ps hdef
  have hlat : ((State.built m n).withInputs ps).latency = n := built_latency m n
  have hall := outcomes_of_empty (s := (State.built m n).withInputs ps) (built_emptyAt m n)
    (by rwa [State.hasReset_eq, hlat])
  rwa [hlat] at hall

end Sys2Proof.Machine

/-! ## Decoding and encoding bundles

`decodeOp` is tied to the opcode table and to `Instr.opcode` once, the bundle's five fields to `Bundle.pack` once. -/

namespace Sys2Proof.Machine

open BitVec

theorem read_eq_some_iff {w : Nat} {x : Signal w} {v : BitVec w} :
    x.read = some v ↔ x.isDriven = true ∧ x.value = v := by
  simp [Signal.read]

/-- The rotate amount's field of a driven port is in1[4:0] of its Word (R40). -/
@[simp] theorem amount_of (v : Word) : (Signal.of v).amount = .of (v.extractLsb' 0 5) := by
  have hdriven : (allOnes 32).extractLsb' 0 5 = allOnes 5 := by
    ext i hi
    simp only [getElem_extractLsb', getLsbD_allOnes, getElem_allOnes, decide_eq_true_eq]
    omega
  simp only [Signal.amount, Signal.of, hdriven]

/-- A driven rotate amount is presented on a driven port. -/
@[simp] theorem ofAmount_of (c : BitVec 5) : (Signal.of c).ofAmount = .of (0#27 ++ c) := by
  have hdriven : allOnes 27 ++ allOnes 5 = allOnes 32 := by
    ext i hi
    simp only [getElem_append, getElem_allOnes, dite_eq_ite, ite_self]
  simp only [Signal.ofAmount, Signal.of, hdriven]

/-- The rotate amount is read back from where it is presented, undriven bits included (R39, log 20). -/
@[simp] theorem amount_ofAmount (c : Signal 5) : c.ofAmount.amount = c := by
  cases c
  simp only [Signal.ofAmount, Signal.amount]
  congr 1
  · exact extractLsb'_append_eq_right
  · exact extractLsb'_append_eq_right

/-- The request of four operand words and a code, every bit driven. -/
def requestOfWords (op : OpCode) (a b c d : Word) : Request := ⟨.of op, .of a, .of b, .of c, .of d⟩

/-- No operand field has a say in which operation a code selects (R43). -/
theorem decodeOp_fields_irrel (op : OpCode) (r r' : Request) :
    (decodeOp op r).opcode = (decodeOp op r').opcode ∧ (decodeOp op r).format = (decodeOp op r').format := by
  unfold decodeOp
  split <;> exact ⟨rfl, rfl⟩

/-- The operation a code selects has that code (R42). -/
theorem opcode_decodeOp (op : OpCode) (r : Request) : (decodeOp op r).opcode = op := by
  have hzero : ∀ op, (decodeOp op (requestOfWords 0 0 0 0 0)).opcode = op := by decide
  obtain ⟨hcode, -⟩ := decodeOp_fields_irrel op r (requestOfWords 0 0 0 0 0)
  rw [hcode, hzero]

/-- The code of an operation selects it again from the request that presents it (R42, R48). -/
theorem decodeOp_toRequest (i : Instr) : decodeOp i.opcode i.toRequest = i := by
  cases i with
  | rotl n c => exact congrArg (Instr.rotl n) (amount_ofAmount c)
  | rotr n c => exact congrArg (Instr.rotr n) (amount_ofAmount c)
  | reserved101x low => decide +revert
  | reserved11xx low => decide +revert
  | _ => rfl

theorem toRequest_op (i : Instr) : i.toRequest.op = .of i.opcode := by cases i <;> rfl

/-- Decoding undoes presenting, whatever bits are driven (R41, R42). -/
theorem decode_toRequest (i : Instr) : decode i.toRequest = .ok i := by
  rw [decode_of_read (by rw [toRequest_op, read_of]), decodeOp_toRequest]

/-- The five fields of a bundle are the words packed into it (R38). -/
theorem ofBundle_pack (op : OpCode) (a b c d : Word) :
    Request.ofBundle (.pack op a b c d) = requestOfWords op a b c d := by
  have h0 : (Bundle.pack op a b c d).extractLsb' 0 32 = a := extractLsb'_append_eq_right
  have h1 : (Bundle.pack op a b c d).extractLsb' 32 32 = b :=
    (extractLsb'_append_eq_of_le (by decide)).trans extractLsb'_append_eq_right
  have h2 : (Bundle.pack op a b c d).extractLsb' 64 32 = c :=
    (extractLsb'_append_eq_of_le (by decide)).trans <|
      (extractLsb'_append_eq_of_le (by decide)).trans extractLsb'_append_eq_right
  have h3 : (Bundle.pack op a b c d).extractLsb' 96 32 = d :=
    (extractLsb'_append_eq_of_le (by decide)).trans <| (extractLsb'_append_eq_of_le (by decide)).trans <|
      (extractLsb'_append_eq_of_le (by decide)).trans extractLsb'_append_eq_right
  rw [Request.ofBundle, Laws.OpField.op_of_pack, h0, h1, h2, h3, requestOfWords]

/-- A bundle of words and a code decodes to that code's operation on the words (R38, R42). -/
theorem decodeBundle_pack (op : OpCode) (a b c d : Word) :
    decodeBundle (.pack op a b c d) = .ok (decodeOp op (requestOfWords op a b c d)) := by
  rw [decodeBundle, ofBundle_pack]
  exact decode_of_read (read_of op)

/-- A request of driven words is carried by its bundle (R38). -/
theorem ofBundle_toBundle (op : OpCode) (a b c d : Word) :
    Request.ofBundle (requestOfWords op a b c d).toBundle = requestOfWords op a b c d :=
  ofBundle_pack op a b c d

/-- A well-formed operation is presented by driven words (R48, R86). -/
theorem toRequest_of_wellFormed {i : Instr} (h : i.wellFormed = true) :
    ∃ a b c d, i.toRequest = requestOfWords i.opcode a b c d := by
  cases i with
  | rotl n c | rotr n c =>
    obtain ⟨hn, hc⟩ := Bool.and_eq_true_iff.mp h
    rw [eq_of_isDriven hn, eq_of_isDriven hc]
    exact ⟨n.value, 0#27 ++ c.value, 0, 0, by simp [Instr.toRequest, requestOfWords]⟩
  | clz x | popcnt x =>
    rw [eq_of_isDriven h]
    exact ⟨_, _, _, _, rfl⟩
  | mulhi x y | mix x y | mixref x y | mixmod x y | mix1a x y =>
    obtain ⟨hx, hy⟩ := Bool.and_eq_true_iff.mp h
    rw [eq_of_isDriven hx, eq_of_isDriven hy]
    exact ⟨_, _, _, _, rfl⟩
  | reduce4 x y z w =>
    obtain ⟨hxyz, hw⟩ := Bool.and_eq_true_iff.mp h
    obtain ⟨hxy, hz⟩ := Bool.and_eq_true_iff.mp hxyz
    obtain ⟨hx, hy⟩ := Bool.and_eq_true_iff.mp hxy
    rw [eq_of_isDriven hx, eq_of_isDriven hy, eq_of_isDriven hz, eq_of_isDriven hw]
    exact ⟨_, _, _, _, rfl⟩
  | reserved101x low | reserved11xx low => exact ⟨_, _, _, _, rfl⟩

/-- Settles O5: the bundle carries the driven request that presents the operation, and that request decodes to it. -/
theorem decodeOfEncode : Obligations.DecodeOfEncode := by
  intro i h
  obtain ⟨a, b, c, d, hr⟩ := toRequest_of_wellFormed h
  have hbundle : Request.ofBundle i.toRequest.toBundle = i.toRequest := by rw [hr, ofBundle_toBundle]
  rw [decodeBundle, encode, hbundle, decode_toRequest]

/-- Settles O3: a driven code selects an operation of that very code. -/
theorem decodeReadsOnlyOpCode : Obligations.DecodeReadsOnlyOpCode := by
  refine fun r => ⟨fun h => ?_, decode_error_iff.mpr⟩
  have hread : r.op.read = some r.op.value := read_eq_some_iff.mpr ⟨h, rfl⟩
  refine ⟨_, decode_of_read hread, opcode_decodeOp _ r, fun r' hr' => ?_⟩
  exact ⟨_, decode_of_read (hr' ▸ hread), by rw [opcode_decodeOp, opcode_decodeOp, hr']⟩

/-- The codes that match the row 0b101x (R45). -/
theorem extractLsb'_eq_101_iff (op : OpCode) : op.extractLsb' 1 3 = 0b101#3 ↔ op.toNat = 10 ∨ op.toNat = 11 := by
  decide +revert

/-- Settles O4: the decoder's answer on the fields packed, code by code. -/
theorem bundleDecodesByCode : Obligations.BundleDecodesByCode := by
  intro op a b c d
  have hcode (y : OpCode) : op = y ↔ op.toNat = y.toNat := toNat_inj.symm
  rw [decodeBundle_pack, decodeOp]
  simp only [hcode, extractLsb'_eq_101_iff]
  split <;> simp_all [requestOfWords]

/-! ## Operands of the opcode table -/

/-- Settles O6: the field, and its value as a remainder. -/
theorem rotateAmountIsLowFiveBits : Obligations.RotateAmountIsLowFiveBits :=
  fun v => ⟨amount_of v, by simp [extractLsb'_toNat]⟩

/-- A row that a code matches has the format of the operation the code selects (R42, R45). -/
theorem format_decodeOp {op : OpCode} {row : OpRow} (hrow : row ∈ opRows) (hmatch : row.matchesCode op = true)
    (r : Request) : (decodeOp op r).format = row.format := by
  have hzero : ∀ op, ∀ row ∈ opRows, row.matchesCode op = true →
      (decodeOp op (requestOfWords 0 0 0 0 0)).format = row.format := by decide
  obtain ⟨-, hformat⟩ := decodeOp_fields_irrel op r (requestOfWords 0 0 0 0 0)
  rw [hformat, hzero op row hrow hmatch]

theorem opRows_partition (op : OpCode) : ∃ row ∈ opRows, row.matchesCode op = true ∧
    ∀ row' ∈ opRows, row'.matchesCode op = true → row' = row := by
  decide +revert

/-- Settles O2: the rows partition the codes, and a row has the format of what its codes select. -/
theorem tableRowsPartitionCodes : Obligations.TableRowsPartitionCodes := by
  intro op
  obtain ⟨row, hrow, hmatch, hunique⟩ := opRows_partition op
  exact ⟨row, hrow, hmatch, hunique, format_decodeOp hrow hmatch⟩

/-- An operation carries what its format reads and nothing else of the request (R39, R41). -/
theorem decodeOp_congr {op : OpCode} {r r' : Request} (h : agreeOn (decodeOp op r).format r r') :
    decodeOp op r = decodeOp op r' := by
  unfold decodeOp at h ⊢
  split at h <;> simp_all [agreeOn, Instr.format]

/-- Requests with the same `req_op` that agree on what the selected operation reads decode alike, undriven bits or not
(R41, R43). -/
theorem decode_congr {r r' : Request} (hop : r.op = r'.op) (h : agreeOn (decodeOp r.op.value r).format r r') :
    decode r = decode r' := by
  cases hd : r.op.isDriven with
  | true =>
    have hread : r.op.read = some r.op.value := read_eq_some_iff.mpr ⟨hd, rfl⟩
    rw [decode_of_read hread, decode_of_read (hop ▸ hread : r'.op.read = some r.op.value), decodeOp_congr h]
  | false =>
    have herror : decode r = .error .undrivenOperationCode := decode_error_iff.mpr hd
    rw [herror, decode_error_iff.mpr (hop ▸ hd)]

/-- What the table makes of a request depends on its decoding only. -/
theorem transact_congr {r r' : Request} (h : decode r = decode r') (m : Mode) : transact m r = transact m r' := by
  cases hr : decode r with
  | ok i => rw [transact_of_decode hr, transact_of_decode (h ▸ hr)]
  | error e => rw [transact_of_decode_error hr, transact_of_decode_error (h ▸ hr)]

/-- Settles O7: the two requests decode alike, and all else follows from that. -/
theorem unreadFieldsHaveNoEffect : Obligations.UnreadFieldsHaveNoEffect := by
  intro r r' hop hagree
  obtain ⟨row, hrow, hmatch, -⟩ := opRows_partition r.op.value
  have hfields : agreeOn (decodeOp r.op.value r).format r r' :=
    format_decodeOp hrow hmatch r ▸ hagree row hrow hmatch
  have hdecode : decode r = decode r' := decode_congr hop hfields
  refine ⟨hdecode, transact_congr hdecode, fun s => ?_⟩
  rw [acceptRequest_eq_respondTo, acceptRequest_eq_respondTo, transact_congr hdecode]

/-! ## Undriven bits -/

section Fields

variable {v w : Nat}

theorem onFields1_cases (f : BitVec v → Word) (x : Signal v) :
    (x.isDriven = true ∧ ∃ a, onFields1 f x = .next a) ∨
      (x.isDriven = false ∧ onFields1 f x = .fault .undrivenOperand) := by
  cases hx : x.isDriven <;> simp [onFields1, Signal.read, hx]

theorem onFields2_cases (f : BitVec v → BitVec w → Word) (x : Signal v) (y : Signal w) :
    ((x.isDriven && y.isDriven) = true ∧ ∃ a, onFields2 f x y = .next a) ∨
      ((x.isDriven && y.isDriven) = false ∧ onFields2 f x y = .fault .undrivenOperand) := by
  cases hd : x.isDriven && y.isDriven with
  | true =>
    obtain ⟨hx, hy⟩ := Bool.and_eq_true_iff.mp hd
    exact .inl ⟨rfl, f x.value y.value, by simp [onFields2, Signal.read, hx, hy]⟩
  | false =>
    refine .inr ⟨rfl, ?_⟩
    unfold onFields2
    split
    · simp_all [read_eq_some_iff]
    · rfl

theorem onFields4_cases (f : Word → Word → Word → Word → Word) (x y z u : Signal 32) :
    ((x.isDriven && y.isDriven && z.isDriven && u.isDriven) = true ∧ ∃ a, onFields4 f x y z u = .next a) ∨
      ((x.isDriven && y.isDriven && z.isDriven && u.isDriven) = false ∧
        onFields4 f x y z u = .fault .undrivenOperand) := by
  cases hd : x.isDriven && y.isDriven && z.isDriven && u.isDriven with
  | true =>
    obtain ⟨⟨⟨hx, hy⟩, hz⟩, hu⟩ : ((x.isDriven ∧ y.isDriven) ∧ z.isDriven) ∧ u.isDriven := by simpa using hd
    exact .inl ⟨rfl, f x.value y.value z.value u.value, by simp [onFields4, Signal.read, hx, hy, hz, hu]⟩
  | false =>
    refine .inr ⟨rfl, ?_⟩
    unfold onFields4
    split
    · simp_all [read_eq_some_iff]
    · rfl

end Fields

/-- An operation of a table row that is not reserved has a value where every field it reads is driven, and is a fault
otherwise (R63, R86). -/
theorem operationOutcome_cases (m : Mode) (i : Instr) :
    i.format = .none ∨ (i.wellFormed = true ∧ ∃ w, operationOutcome m i = .next w) ∨
      (i.wellFormed = false ∧ operationOutcome m i = .fault .undrivenOperand) := by
  cases i with
  | rotl n c => exact .inr (onFields2_cases rotl n c)
  | rotr n c => exact .inr (onFields2_cases rotr n c)
  | clz x => exact .inr (onFields1_cases clz x)
  | popcnt x => exact .inr (onFields1_cases popcnt x)
  | mulhi x y => exact .inr (onFields2_cases mulhi x y)
  | mix u v => exact .inr (onFields2_cases (mixBy m) u v)
  | mixref u v => exact .inr (onFields2_cases mixRef u v)
  | mixmod u v => exact .inr (onFields2_cases mixMod u v)
  | mix1a u v => exact .inr (onFields2_cases mix1a u v)
  | reduce4 x y z w => exact .inr (onFields4_cases (reduce4 m) x y z w)
  | reserved101x low => exact .inl rfl
  | reserved11xx low => exact .inl rfl

/-- The operations without a format are the reserved ones: they read no field, and their codes are not to be issued
(R39, R45). -/
theorem reserved_of_format_none {i : Instr} (h : i.format = .none) :
    i.wellFormed = true ∧ isReservedCode i.opcode = true := by
  cases i with
  | reserved101x low => decide +revert
  | reserved11xx low => decide +revert
  | _ => cases h

/-- Settles O21: an operation that is not well formed has the fault for its outcome. -/
theorem undrivenFieldsFault : Obligations.UndrivenFieldsFault := by
  refine ⟨fun i s h => ?_, fun r s h => ?_, fun r s h => acceptRequest_of_isDefined h s⟩
  · obtain hnone | ⟨hwf, -⟩ | ⟨-, hfault⟩ := operationOutcome_cases s.mode i
    · obtain ⟨hwf, -⟩ := reserved_of_format_none hnone
      simp [h] at hwf
    · simp [h] at hwf
    · rw [exec_eq_respondTo, hfault]
      rfl
  · exact acceptRequest_of_decode_error (e := .undrivenOperationCode) (decode_error_iff.mpr h) s

/-- Settles O19: both meanings are the illegal response. -/
theorem reservedRowsComplete : Obligations.ReservedRowsComplete := fun _ _ _ => ⟨rfl, rfl⟩

/-! ## Legal requests are answered with values -/

/-- A request that decodes, decodes to an operation of its own code (R42). -/
theorem opcode_of_decode {r : Request} {i : Instr} (h : decode r = .ok i) : i.opcode = r.op.value := by
  obtain ⟨op, hread, rfl⟩ := decode_ok_iff.mp h
  obtain ⟨-, rfl⟩ := read_eq_some_iff.mp hread
  exact opcode_decodeOp _ r

/-- A defined request of a code that is not reserved has a value (R45, R63, R86). -/
theorem transact_of_isLegal {r : Request} (h : r.isLegal = true) (m : Mode) : ∃ w, transact m r = .next w := by
  obtain ⟨hdef, hcode⟩ : r.isDefined = true ∧ isReservedCode r.op.value = false := by
    simpa [Request.isLegal] using h
  obtain ⟨i, hi, hwf⟩ := isDefined_iff.mp hdef
  rw [transact_of_decode hi]
  obtain hnone | ⟨-, hvalue⟩ | ⟨hnot, -⟩ := operationOutcome_cases m i
  · obtain ⟨-, hreserved⟩ := reserved_of_format_none hnone
    simp [opcode_of_decode hi, hcode] at hreserved
  · exact hvalue
  · simp [hwf] at hnot

/-- No response in the pipeline or on the response port is the illegal one. -/
def State.NoErr (s : State) : Prop :=
  (∀ x ∈ s.stages, x.valid = true → x.err = false) ∧ (s.rsp.rspValid = true → s.rsp.err = false)

theorem built_noErr (m : Mode) (n : Nat) : (State.built m n).NoErr := by
  refine ⟨fun x hx hv => ?_, nofun⟩
  simp [clearedStages_empty x hx] at hv

theorem clockEdge_keeps_noErr {s : State} {x : Stage} (hs : s.NoErr) (hx : x.valid = true → x.err = false) :
    (s.clockEdge x).NoErr := by
  obtain ⟨hstages, -⟩ := hs
  have hall : ∀ y ∈ x :: s.stages, y.valid = true → y.err = false := List.forall_mem_cons.mpr ⟨hx, hstages⟩
  refine ⟨fun y hy => hall y (List.mem_of_mem_dropLast hy), ?_⟩
  rw [State.clockEdge_rsp, ofStage_rspValid, ← List.getLast_eq_getLastD (List.cons_ne_nil x s.stages)]
  intro hv
  simpa [RspPort.ofStage, hv] using hall _ (List.getLast_mem _) hv

/-- A step that accepts a legal request shifts in a value (R20, R45). -/
theorem step_of_accepts_isLegal {s t : State} {p : Inputs} {ps : List Inputs} (hin : s.inputs = p :: ps)
    (ha : p.accepts s.hasReset = true) (hlegal : p.request.isLegal = true) (h : step s = .next t) :
    ∃ w, t = s.dropInput.respond (.ok w) := by
  obtain ⟨w, hw⟩ := transact_of_isLegal hlegal s.dropInput.mode
  rw [step_of_accepts hin ha, acceptRequest_eq_respondTo, hw] at h
  exact ⟨w, (Host.Outcome.next.inj h).symm⟩

theorem step_keeps_noErr {s t : State} (hs : s.NoErr) (hlegal : s.inputsLegal = true) (h : step s = .next t) :
    t.NoErr := by
  have hdrop : s.dropInput.NoErr := hs
  obtain ⟨p, ps, -, hin, ha, -⟩ | rfl | rfl := step_next_kind h
  · have hp : p.request.isLegal = true := by
      obtain ⟨hp, -⟩ : p.isLegal s.hasReset = true ∧ _ := by simpa [State.inputsLegal, hin] using hlegal
      simpa [Inputs.isLegal, ha] using hp
    obtain ⟨w, rfl⟩ := step_of_accepts_isLegal hin ha hp h
    exact clockEdge_keeps_noErr hdrop fun _ => rfl
  · exact clockEdge_keeps_noErr hdrop nofun
  · obtain ⟨-, hrsp⟩ : s.dropInput.idleEdge.NoErr := clockEdge_keeps_noErr hdrop nofun
    refine ⟨fun x hx hv => ?_, hrsp⟩
    simp [clearedStages_empty x hx] at hv

theorem step_keeps_inputsLegal {s t : State} (hlegal : s.inputsLegal = true) (h : step s = .next t) :
    t.inputsLegal = true := by
  rw [State.inputsLegal, List.all_eq_true] at hlegal ⊢
  rw [step_inputs h, step_keeps_hasReset h]
  exact fun q hq => hlegal q (List.mem_of_mem_drop hq)

/-- From a state without an illegal response, legal inputs lead to none on the port. -/
theorem sampled_noErr {k : Nat} {s : State} (hs : s.NoErr) (hlegal : s.inputsLegal = true) :
    ∀ x ∈ sampled k s, x.rspValid = true → x.err = false := by
  intro x hx
  obtain ⟨j, hj⟩ := List.mem_iff_getElem?.mp hx
  obtain ⟨-, t, ht, rfl⟩ := sampled_getElem?_eq_some.mp hj
  obtain ⟨⟨-, hrsp⟩, -⟩ := run_keeps (P := fun u => u.NoErr ∧ u.inputsLegal = true)
    (fun ⟨hu, hlegal⟩ h => ⟨step_keeps_noErr hu hlegal h, step_keeps_inputsLegal hlegal h⟩) ⟨hs, hlegal⟩ ht
  exact hrsp

/-- A port that shows no illegal response lets the host conclude a value, if anything (R25, R65). -/
theorem outcome_value_of_not_err {x : RspPort} {o : Transaction} (hx : x.rspValid = true → x.err = false)
    (h : x.outcome = some o) : ∃ w, o = .next w := by
  cases hv : x.rspValid with
  | true => exact ⟨x.result, by simpa [RspPort.outcome, hv, hx hv] using h.symm⟩
  | false => simp [outcome_of_not_rspValid hv] at h

/-- Settles O43: no edge from the state after reset on samples an illegal response. -/
theorem legalInputsGiveOnlyValues : Obligations.LegalInputsGiveOnlyValues := by
  intro m n k ps hlegal o ho
  have hinputs : ((State.built m n).withInputs ps).inputsLegal = true := by
    have hlat : ((State.built m n).withInputs ps).latency = n := built_latency m n
    rw [State.inputsLegal, State.hasReset_eq, hlat, List.all_eq_true]
    exact hlegal
  obtain ⟨x, hx, houtcome⟩ := List.mem_filterMap.mp ho
  have hstart : ((State.built m n).withInputs ps).NoErr := built_noErr m n
  exact outcome_value_of_not_err (sampled_noErr hstart hinputs x hx) houtcome

/-! ## The assembler -/

/-- Settles O1: the assembler and the decoder run on the five lines. -/
theorem encodingExamples : Obligations.EncodingExamples :=
  ⟨⟨by decide, rfl⟩, ⟨by decide, rfl⟩, ⟨by decide, rfl⟩, ⟨by decide, rfl⟩, ⟨by decide, rfl⟩⟩

theorem StandsFor.word {env : HostNames} {o : AsmOperand} {w : Word} (h : StandsFor env o w) : o.word env = .ok w := by
  obtain rfl | ⟨n, rfl, hn⟩ := h
  · exact AsmOperand.word_literal env w
  · exact AsmOperand.word_name hn

/-- Every mnemonic with a code of its own is one of the spelled rows. -/
theorem spelledRows_of_asmTable : ∀ row ∈ asmTable, ∀ code n, row.2 = .request code n →
    ∃ r ∈ spelledRows, r.mnemonic = row.1 ∧ r.code = code ∧ r.operands = n := by
  simp [asmTable, spelledRows]

theorem mnemonicOp_of_spelledRows :
    ∀ r ∈ spelledRows, mnemonicOp r.mnemonic.toList = some (.request r.code r.operands) := by
  decide

/-- The code of a spelled row selects its operation (R42). -/
theorem decodeOp_of_spelledRows : ∀ r ∈ spelledRows, ∀ a b c d,
    decodeOp r.code (requestOfWords r.code a b c d) = r.op a b c d := by
  simp [spelledRows, decodeOp, requestOfWords]

theorem assemble_asmLine {env : HostNames} {tgt : Option HostName} {m : String} {op : AsmOp} (os : List AsmOperand)
    (h : mnemonicOp m.toList = some op) : assemble env (asmLine tgt m os) = assembleAs env op os :=
  assemble_of_mnemonicOp env h

/-- Settles O52: the operands have their words, and the bundle of the words decodes by its code. -/
theorem assembledLinesEncodeOperands : Obligations.AssembledLinesEncodeOperands := by
  refine ⟨spelledRows_of_asmTable, fun env tgt r hr os ws hwords => ?_⟩
  have hassemble := (assemble_asmLine (tgt := tgt) os (mnemonicOp_of_spelledRows r hr)).trans
    (assembleAs_request r.code r.operands (operandWords_of_words (hwords.imp fun _ _ => StandsFor.word)))
  rw [← hwords.length_eq] at hassemble
  refine ⟨fun hlen => ⟨?_, ?_⟩, fun hlen => ?_⟩
  · rw [hassemble, if_pos hlen, packOperands]
  · rw [decodeBundle_pack, decodeOp_of_spelledRows r hr]
  · rw [hassemble, if_neg hlen]

/-- A rotate by a literal in range is the rotate it abbreviates (R49). -/
theorem assembleAs_rotateLiteral (env : HostNames) (code : OpCode) (n : AsmOperand) {k : Word} (hk : k.toNat < 32) :
    assembleAs env (.rotateLiteral code) [n, .literal k] = assembleAs env (.request code 2) [n, .literal k] := by
  cases hn : n.word env <;> simp [assembleAs, operandWords, hk, hn]

/-- A rotate by a literal is a request only where its amount is a literal in 0..31 (R49). -/
theorem amount_of_assembleAs_rotateLiteral {env : HostNames} {code : OpCode} {n k : AsmOperand} {b : Bundle}
    (h : assembleAs env (.rotateLiteral code) [n, k] = .ok b) : ∃ w : Word, k = .literal w ∧ w.toNat < 32 := by
  cases k with
  | literal w =>
    refine ⟨w, rfl, ?_⟩
    by_contra hw
    simp [assembleAs, hw] at h
  | name m => simp [assembleAs] at h

/-- Lines of mnemonics that stand for the same are the same request. -/
theorem assemble_congr {env : HostNames} {tgt : Option HostName} {m m' : String} (os : List AsmOperand)
    (h : mnemonicOp m.toList = mnemonicOp m'.toList) :
    assemble env (asmLine tgt m os) = assemble env (asmLine tgt m' os) := by
  simp only [assemble, h]

theorem assemble_unknown {env : HostNames} {tgt : Option HostName} {m : String} (os : List AsmOperand)
    (h : mnemonicOp m.toList = none) : assemble env (asmLine tgt m os) = .error .unknownMnemonic := by
  simp only [assemble, h]

/-- Settles O51: what the mnemonics stand for, and what a rotate by a literal is. -/
theorem pseudoInstructionsExpand : Obligations.PseudoInstructionsExpand := by
  intro env tgt
  have hrotl (os) : assemble env (asmLine tgt "ROTL" os) = assembleAs env (.request 0x0 2) os :=
    assemble_asmLine os (by decide)
  have hrotr (os) : assemble env (asmLine tgt "ROTR" os) = assembleAs env (.request 0x1 2) os :=
    assemble_asmLine os (by decide)
  have hrotli (os) : assemble env (asmLine tgt "ROTLI" os) = assembleAs env (.rotateLiteral 0x0) os :=
    assemble_asmLine os (by decide)
  have hrotri (os) : assemble env (asmLine tgt "ROTRI" os) = assembleAs env (.rotateLiteral 0x1) os :=
    assemble_asmLine os (by decide)
  refine ⟨fun os => assemble_congr os (by decide), fun os => assemble_congr os (by decide), fun n k hk => ?_,
    fun n k b h => ?_, fun os => ⟨assemble_unknown os (by decide), assemble_unknown os (by decide)⟩⟩
  · rw [hrotli, hrotl, hrotri, hrotr]
    exact ⟨assembleAs_rotateLiteral env 0x0 n hk, assembleAs_rotateLiteral env 0x1 n hk⟩
  · rw [hrotli, hrotri] at h
    exact h.elim amount_of_assembleAs_rotateLiteral amount_of_assembleAs_rotateLiteral

end Sys2Proof.Machine

/-! ## The BitOps

What each operation of 40_bitops.md answers, read off its outcome, and the laws of the words it answers. -/

namespace Sys2Proof.Machine

section Outcomes

variable {v w : Nat}

@[simp] theorem onFields1_of (f : BitVec v → Word) (a : BitVec v) : onFields1 f (.of a) = .next (f a) := by
  simp [onFields1]

@[simp] theorem onFields2_of (f : BitVec v → BitVec w → Word) (a : BitVec v) (b : BitVec w) :
    onFields2 f (.of a) (.of b) = .next (f a b) := by
  simp [onFields2]

/-- An operation whose outcome is a value is answered with that value and `err` = 0 (R20). -/
theorem answersWith_of_outcome {i : Instr} {s : State} {a : Word} (h : operationOutcome s.mode i = .next a) :
    AnswersWith i s a false := by
  rw [AnswersWith, exec_eq_respondTo, h]
  rfl

/-- A request with a driven code decodes to the operation of that code (R43). -/
theorem decode_of_op {r : Request} {op : OpCode} (h : r.op = .of op) : decode r = .ok (decodeOp op r) :=
  decode_of_read (by rw [h, read_of])

end Outcomes

/-! ### Rotates -/

/-- Bit `i` of a left rotate comes from `s` places below, around the end (R51). -/
theorem getLsbD_rotl (n : Word) (s : BitVec 5) {i : Nat} (hi : i < 32) :
    (rotl n s).getLsbD i = n.getLsbD ((i + 32 - s.toNat) % 32) := by
  have hs : s.toNat < 32 := s.isLt
  simp only [rotl, BitVec.getLsbD_or, BitVec.getLsbD_shiftLeft, BitVec.getLsbD_ushiftRight, hi, decide_true,
    Bool.true_and]
  by_cases hlow : i < s.toNat
  · have hidx : (32 - s.toNat) % 32 + i = (i + 32 - s.toNat) % 32 := by omega
    simp [hlow, hidx]
  · have hidx : (i + 32 - s.toNat) % 32 = i - s.toNat := by omega
    by_cases hzero : s.toNat = 0
    · simp [hzero, Nat.mod_eq_of_lt hi]
    · have hbeyond : n.getLsbD ((32 - s.toNat) % 32 + i) = false := BitVec.getLsbD_of_ge _ _ (by omega)
      simp [hlow, hidx, hbeyond]

/-- The two shifts of a right rotate are those of the left rotate by the complementary amount. -/
theorem rotr_eq_rotl_neg (n : Word) (s : BitVec 5) : rotr n s = rotl n (-s) := by
  have hs : s.toNat < 32 := s.isLt
  have hneg : (-s).toNat = (32 - s.toNat) % 32 := BitVec.toNat_neg s
  have hback : (32 - (32 - s.toNat) % 32) % 32 = s.toNat := by omega
  rw [rotr, rotl, hneg, hback, BitVec.or_comm]

/-- Bit `i` of a right rotate comes from `s` places above, around the end (R52). -/
theorem getLsbD_rotr (n : Word) (s : BitVec 5) {i : Nat} (hi : i < 32) :
    (rotr n s).getLsbD i = n.getLsbD ((i + s.toNat) % 32) := by
  have hs : s.toNat < 32 := s.isLt
  have hneg : (-s).toNat = (32 - s.toNat) % 32 := BitVec.toNat_neg s
  rw [rotr_eq_rotl_neg, getLsbD_rotl n _ hi, hneg]
  exact congrArg n.getLsbD (by omega)

/-- Settles O8: the word is `rotl n c`, and its bits are those of `getLsbD_rotl`. -/
theorem rotlAnswersRotatedWord : Obligations.RotlAnswersRotatedWord := by
  intro s r n c hop hn hc
  refine ⟨?_, rotl n c, answersWith_of_outcome (onFields2_of rotl n c), rfl, fun i hi => getLsbD_rotl n c hi⟩
  rw [decode_of_op hop, ← hn, ← hc]
  rfl

/-- Settles O9: the word is `rotr n c`, and its bits are those of `getLsbD_rotr`. -/
theorem rotrAnswersRotatedWord : Obligations.RotrAnswersRotatedWord := by
  intro s r n c hop hn hc
  refine ⟨?_, rotr n c, answersWith_of_outcome (onFields2_of rotr n c), rfl, fun i hi => getLsbD_rotr n c hi⟩
  rw [decode_of_op hop, ← hn, ← hc]
  rfl

/-- Settles O23: the place a bit is taken from by one rotate is given back by the other. -/
theorem rotatesInvertEachOther : Obligations.RotatesInvertEachOther := by
  intro n c
  have hc : c.toNat < 32 := c.isLt
  refine ⟨BitVec.eq_of_getLsbD_eq fun i hi => ?_, BitVec.eq_of_getLsbD_eq fun i hi => ?_⟩
  · rw [getLsbD_rotl _ _ hi, getLsbD_rotr _ _ (Nat.mod_lt _ (by decide))]
    exact congrArg n.getLsbD (by omega)
  · rw [getLsbD_rotr _ _ hi, getLsbD_rotl _ _ (Nat.mod_lt _ (by decide))]
    exact congrArg n.getLsbD (by omega)

theorem rotl_amount_zero (n : Word) : rotl n 0 = n := by simp [rotl]

/-- A word whose bits are all alike is fixed by every rotate. -/
theorem rotl_of_equal_bits {n : Word} {b : Bool} (h : ∀ i < 32, n.getLsbD i = b) (c : BitVec 5) : rotl n c = n := by
  refine BitVec.eq_of_getLsbD_eq fun i hi => ?_
  rw [getLsbD_rotl n c hi, h i hi]
  exact h _ (Nat.mod_lt _ (by decide))

/-- Settles O24: the complementary amount is the negated one, and zero and all ones have equal bits. -/
theorem rotlIsComplementaryRotr : Obligations.RotlIsComplementaryRotr := by
  intro n c
  have hcompl : BitVec.ofNat 5 ((32 - c.toNat) % 32) = -c :=
    BitVec.eq_of_toNat_eq (by rw [BitVec.toNat_neg, BitVec.toNat_ofNat, Nat.mod_mod])
  refine ⟨?_, rotl_amount_zero n, rotl_of_equal_bits (fun _ _ => BitVec.getLsbD_zero) c,
    rotl_of_equal_bits (b := true) (by decide) c⟩
  rw [hcompl, rotr_eq_rotl_neg, BitVec.neg_neg]

/-! ### Population count -/

theorem onesBelow_eq_sum (x : Word) (k : Nat) : onesBelow x k = ∑ i ∈ Finset.range k, (x.getLsbD i).toNat := by
  induction k with
  | zero => rfl
  | succ k ih => rw [onesBelow, ih, Finset.sum_range_succ, Nat.add_comm]

theorem onesBelow_le (x : Word) (k : Nat) : onesBelow x k ≤ k := by
  induction k with
  | zero => exact Nat.le_refl 0
  | succ k ih =>
    have hbit := Bool.toNat_le (x.getLsbD k)
    rw [onesBelow]
    omega

/-- The count of 32 bits fits its Word (R54). -/
theorem toNat_popcnt (x : Word) : (popcnt x).toNat = onesBelow x 32 := by
  have hle := onesBelow_le x 32
  exact (BitVec.toNat_ofNat _ _).trans (Nat.mod_eq_of_lt (by omega))

/-- Settles O11: the count is a sum of 32 bits, so it is at most 32. -/
theorem popcntAnswersSumOfBits : Obligations.PopcntAnswersSumOfBits := by
  intro s r x hop hx
  refine ⟨?_, popcnt x, answersWith_of_outcome (onFields1_of popcnt x), ?_, ?_⟩
  · rw [decode_of_op hop, ← hx]
    rfl
  · rw [toNat_popcnt, onesBelow_eq_sum]
    rfl
  · rw [toNat_popcnt]
    exact onesBelow_le x 32

/-- A rotate permutes the places of the bits, so their sum stays. -/
theorem onesBelow_rotl (n : Word) (c : BitVec 5) : onesBelow (rotl n c) 32 = onesBelow n 32 := by
  have hc : c.toNat < 32 := c.isLt
  rw [onesBelow_eq_sum, onesBelow_eq_sum]
  refine Finset.sum_nbij' (fun i => (i + 32 - c.toNat) % 32) (fun i => (i + c.toNat) % 32)
    (fun i _ => Finset.mem_range.mpr (Nat.mod_lt _ (by decide)))
    (fun i _ => Finset.mem_range.mpr (Nat.mod_lt _ (by decide))) (fun i hi => ?_) (fun i hi => ?_) (fun i hi => ?_)
  · rw [Finset.mem_range] at hi
    omega
  · rw [Finset.mem_range] at hi
    omega
  · rw [getLsbD_rotl n c (Finset.mem_range.mp hi)]

/-- Settles O25: the sums of the bits agree. -/
theorem popcntInvariantUnderRotation : Obligations.PopcntInvariantUnderRotation :=
  fun n c => congrArg zext32 (onesBelow_rotl n c)

/-! ### Leading zeros -/

theorem zerosFrom_of_clear {x : Word} {k : Nat} (h : ∀ j < k, x.getLsbD j = false) : zerosFrom x k = k := by
  induction k with
  | zero => rfl
  | succ k ih =>
    have htop : x.getLsbD k = false := h k k.lt_succ_self
    rw [zerosFrom, htop, ih fun j hj => h j (hj.trans k.lt_succ_self)]
    rfl

/-- Counting from the top stops at the highest 1. -/
theorem zerosFrom_of_highest {x : Word} {h k : Nat} (hh : x.getLsbD h = true) (hk : h < k)
    (hclear : ∀ j < k, h < j → x.getLsbD j = false) : zerosFrom x k = k - 1 - h := by
  induction k with
  | zero => exact absurd hk h.not_lt_zero
  | succ k ih =>
    obtain rfl | hlt := Nat.eq_or_lt_of_le (Nat.le_of_lt_succ hk)
    · rw [zerosFrom, if_pos hh]
      omega
    · have htop : x.getLsbD k = false := hclear k k.lt_succ_self hlt
      rw [zerosFrom, htop, ih hlt fun j hj => hclear j (hj.trans k.lt_succ_self)]
      simp only [Bool.false_eq_true, if_false]
      omega

theorem clz_zero : clz 0 = 32 := congrArg zext32 (zerosFrom_of_clear fun _ _ => BitVec.getLsbD_zero)

theorem clz_of_highest {x : Word} {h : Nat} (hh : x.getLsbD h = true) (hlt : h < 32)
    (hclear : ∀ j < 32, h < j → x.getLsbD j = false) : clz x = BitVec.ofNat 32 (31 - h) :=
  congrArg zext32 (zerosFrom_of_highest hh hlt hclear)

/-- Settles O10: the count runs down to the highest 1, or through all 32 bits. -/
theorem clzAnswersLeadingZeros : Obligations.ClzAnswersLeadingZeros := by
  intro s r x hop hx
  refine ⟨?_, clz x, answersWith_of_outcome (onFields1_of clz x), ?_, fun h hlt hh => clz_of_highest hh hlt⟩
  · rw [decode_of_op hop, ← hx]
    rfl
  · rintro rfl
    exact clz_zero

section NonZero

variable {n : Word} (hn : n ≠ 0)

include hn

theorem log2_lt_32 : n.toNat.log2 < 32 := (Nat.log2_lt (BitVec.toNat_ne.mp hn)).mpr n.isLt

/-- The binary logarithm is the place of a 1; `toNat_clz_of_ne_zero` shows that it is the highest. -/
theorem getLsbD_log2 : n.getLsbD n.toNat.log2 = true := Nat.testBit_log2 (BitVec.toNat_ne.mp hn)

theorem toNat_clz_of_ne_zero : (clz n).toNat = 31 - n.toNat.log2 := by
  have hclear (j : Nat) (_ : j < 32) (hj : n.toNat.log2 < j) : n.getLsbD j = false :=
    Nat.testBit_lt_two_pow ((Nat.log2_lt (BitVec.toNat_ne.mp hn)).mp hj)
  rw [clz_of_highest (getLsbD_log2 hn) (log2_lt_32 hn) hclear, BitVec.toNat_ofNat]
  omega

/-- The highest 1 stands right below the leading zeros. -/
theorem place_of_clz : 31 - (clz n).toNat = n.toNat.log2 := by
  have hlog := log2_lt_32 hn
  rw [toNat_clz_of_ne_zero hn]
  omega

/-- The value is below the power of two that the leading zeros leave room for (L5). -/
theorem toNat_lt_of_clz : n.toNat < 2 ^ (32 - (clz n).toNat) := by
  have hclz := toNat_clz_of_ne_zero hn
  have hplace := place_of_clz hn
  have hroom : 32 - (clz n).toNat = n.toNat.log2 + 1 := by omega
  exact hroom ▸ Nat.lt_log2_self

end NonZero

/-- Settles O26: a nonzero count is 31 less the binary logarithm. -/
theorem clzBracketsValue : Obligations.ClzBracketsValue := by
  intro n
  refine ⟨⟨fun h => ?_, fun h => h ▸ clz_zero⟩, fun hn => ⟨?_, ?_, toNat_lt_of_clz hn⟩⟩
  · by_contra hn
    have hclz : 32 = 31 - n.toNat.log2 := (congrArg BitVec.toNat h).symm.trans (toNat_clz_of_ne_zero hn)
    omega
  · rw [toNat_clz_of_ne_zero hn]
    omega
  · exact place_of_clz hn ▸ Nat.log2_self_le (BitVec.toNat_ne.mp hn)

/-- A left rotate that only zeros leave at the top is a shift. -/
theorem rotl_eq_shiftLeft {n : Word} {c : BitVec 5} (h : n.toNat < 2 ^ (32 - c.toNat)) :
    rotl n c = n <<< c.toNat := by
  by_cases hzero : c.toNat = 0
  · simp [rotl, hzero]
  · have hamount : (32 - c.toNat) % 32 = 32 - c.toNat := by omega
    have hout : n >>> (32 - c.toNat) = 0#32 := BitVec.eq_of_toNat_eq <| by
      rw [BitVec.toNat_ushiftRight, Nat.shiftRight_eq_div_pow, Nat.div_eq_of_lt h]
      rfl
    rw [rotl, hamount, hout, BitVec.or_zero]

/-- Settles O27: the bits that leave at the top are the leading zeros, and the highest 1 comes to stand there. -/
theorem rotlByClzNormalises : Obligations.RotlByClzNormalises := by
  intro n
  by_cases hn : n = 0
  · subst hn
    refine ⟨?_, fun h => absurd rfl h⟩
    rw [clz_zero]
    rfl
  · have hclz := toNat_clz_of_ne_zero hn
    have hamount : ((clz n).extractLsb' 0 5).toNat = (clz n).toNat := by
      rw [BitVec.extractLsb'_toNat, Nat.shiftRight_zero]
      omega
    have hshift : rotl n ((clz n).extractLsb' 0 5) = n <<< (clz n).toNat := by
      rw [rotl_eq_shiftLeft (hamount ▸ toNat_lt_of_clz hn), hamount]
    refine ⟨by rw [hshift, if_neg hn], fun _ => ?_⟩
    have hle : ¬ 31 < (clz n).toNat := by omega
    rw [hshift, BitVec.getLsbD_shiftLeft, place_of_clz hn, getLsbD_log2 hn]
    simp [hle]

/-! ### Upper word of the product -/

/-- The product of two Words fits 64 bits, so its upper word is the quotient by 2^32 (R55). -/
theorem toNat_mulhi (x y : Word) : (mulhi x y).toNat = x.toNat * y.toNat / 2 ^ 32 := by
  have hprod : x.toNat * y.toNat < 2 ^ 32 * 2 ^ 32 := Nat.mul_lt_mul'' x.isLt y.isLt
  rw [mulhi, mul64, BitVec.extractLsb'_toNat, BitVec.toNat_ofNat, Nat.shiftRight_eq_div_pow]
  omega

/-- Settles O12: it is `toNat_mulhi`. -/
theorem mulhiAnswersUpperProduct : Obligations.MulhiAnswersUpperProduct := by
  intro s r x y hop hx hy
  refine ⟨?_, mulhi x y, answersWith_of_outcome (onFields2_of mulhi x y), toNat_mulhi x y⟩
  rw [decode_of_op hop, ← hx, ← hy]
  rfl

/-- A zero upper word says the product is a Word (R55). -/
theorem mulhi_eq_zero_iff (x y : Word) : mulhi x y = 0 ↔ x.toNat * y.toNat < 2 ^ 32 := by
  rw [← BitVec.toNat_inj, toNat_mulhi, BitVec.ofNat_eq_ofNat, BitVec.toNat_ofNat, Nat.zero_mod,
    Nat.div_eq_zero_iff_lt (by decide)]

/-- Settles O28: each is a fact about the product of the two values. -/
theorem mulhiBoundsAndSymmetry : Obligations.MulhiBoundsAndSymmetry := by
  intro x y
  refine ⟨BitVec.eq_of_toNat_eq ?_, ?_, (mulhi_eq_zero_iff x 1).mpr ?_, mulhi_eq_zero_iff x y⟩
  · rw [toNat_mulhi, toNat_mulhi, Nat.mul_comm]
  · have hx : x.toNat ≤ 0xFFFFFFFF := Nat.le_of_lt_succ x.isLt
    have hy : y.toNat ≤ 0xFFFFFFFF := Nat.le_of_lt_succ y.isLt
    have hprod : x.toNat * y.toNat ≤ 0xFFFFFFFF * 0xFFFFFFFF := Nat.mul_le_mul hx hy
    rw [toNat_mulhi]
    omega
  · exact (Nat.mul_one x.toNat).trans_lt x.isLt

end Sys2Proof.Machine

/-! ## The Mixer

What each operation of 41_mixer.md answers, read off its outcome, and the laws of the words it answers. -/

namespace Sys2Proof.Machine

/-! ### The formulas in the ring of Words -/

/-- The low 32 bits of the product are the product modulo 2^32 (R9, R56). -/
theorem mul32_eq_mul (a b : Word) : mul32 a b = a * b := rfl

theorem mixRef_eq (u v : Word) : mixRef u v = u * 16777619#32 ^^^ v := by
  rw [mixRef, mul32_eq_mul, fnvPrime, BitVec.ofNat_eq_ofNat]

theorem mixMod_eq (u v : Word) : mixMod u v = ((2166136261#32 ^^^ u) * 16777619#32 ^^^ v) * 16777619#32 := by
  rw [mixMod, mul32_eq_mul, mul32_eq_mul, fnvPrime, fnvOffsetBasis, BitVec.ofNat_eq_ofNat, BitVec.ofNat_eq_ofNat]

theorem mix1a_eq (u v : Word) : mix1a u v = (u ^^^ v) * 16777619#32 := by
  rw [mix1a, mul32_eq_mul, fnvPrime, BitVec.ofNat_eq_ofNat]

/-! ### What each operation answers -/

@[simp] theorem onFields4_of (f : Word → Word → Word → Word → Word) (a b c d : Word) :
    onFields4 f (.of a) (.of b) (.of c) (.of d) = .next (f a b c d) := by
  simp [onFields4]

/-- MIX answers the word of the mixer MODE chooses (R59). -/
theorem mix_answersWith_mixBy {s : State} {m : Mode} (hmode : s.mode = m) (u v : Word) :
    AnswersWith (.mix (.of u) (.of v)) s (mixBy m u v) false :=
  answersWith_of_outcome (by rw [hmode]; exact onFields2_of (mixBy m) u v)

/-- Settles O13: the word is `mixRef u v`. -/
theorem mixrefAnswersMultiplyThenXor : Obligations.MixrefAnswersMultiplyThenXor := by
  intro s r u v hop hu hv
  refine ⟨?_, mixRef u v, answersWith_of_outcome (onFields2_of mixRef u v), rfl⟩
  rw [decode_of_op hop, ← hu, ← hv]
  rfl

/-- Settles O14: the word is `mixMod u v`. -/
theorem mixmodAnswersModifiedFormula : Obligations.MixmodAnswersModifiedFormula := by
  intro s r u v hop hu hv
  refine ⟨?_, mixMod u v, answersWith_of_outcome (onFields2_of mixMod u v), mixMod_eq u v⟩
  rw [decode_of_op hop, ← hu, ← hv]
  rfl

/-- Settles O15: the word is `mixBy s.mode u v`, which is `mixRef u v` or `mixMod u v`. -/
theorem mixAnswersFormulaOfMode : Obligations.MixAnswersFormulaOfMode := by
  intro s r u v hop hu hv
  refine ⟨?_, fun hmode => ?_, fun hmode => ?_⟩
  · rw [decode_of_op hop, ← hu, ← hv]
    rfl
  · rw [← mixRef_eq]
    exact mix_answersWith_mixBy hmode u v
  · rw [← mixMod_eq]
    exact mix_answersWith_mixBy hmode u v

/-- Settles O16: the word is `mix1a u v`. -/
theorem mix1aAnswersXorThenMultiply : Obligations.Mix1aAnswersXorThenMultiply := by
  intro s r u v hop hu hv
  constructor
  · rw [decode_of_op hop, ← hu, ← hv]
    rfl
  · rw [← mix1a_eq]
    exact answersWith_of_outcome (onFields2_of mix1a u v)

/-- Settles O17: the three MIX answer the partial folds of `reduce4`, the last of them the word of REDUCE4. -/
theorem reduce4AnswersChainedMix : Obligations.Reduce4AnswersChainedMix := by
  intro s r x y z w hop hx hy hz hw
  refine ⟨?_, _, _, _, mix_answersWith_mixBy rfl x y, mix_answersWith_mixBy rfl _ z, mix_answersWith_mixBy rfl _ w,
    answersWith_of_outcome (onFields4_of (reduce4 s.mode) x y z w)⟩
  rw [decode_of_op hop, ← hx, ← hy, ← hz, ← hw]
  rfl

/-! ### Laws of the mixers -/

/-- An odd factor is prime to 2^32, so it can be cancelled modulo 2^32. -/
theorem mul32_left_injective_of_odd {p : Word} (hp : Odd p.toNat) : Function.Injective fun u => mul32 u p := by
  intro u u' h
  have hmod : u.toNat * p.toNat ≡ u'.toNat * p.toNat [MOD 2 ^ 32] := by
    simpa only [mul32, BitVec.toNat_ofNat, Nat.ModEq] using congrArg BitVec.toNat h
  have hcoprime : (2 ^ 32).Coprime p.toNat := (Nat.coprime_two_left.mpr hp).pow_left 32
  exact BitVec.eq_of_toNat_eq ((hmod.cancel_right_of_coprime hcoprime).eq_of_lt_of_lt u.isLt u'.isLt)

theorem odd_fnvPrime : Odd fnvPrime.toNat := by decide

/-- Settles O29: the odd multiplication and the XOR are both injective, and Words are finitely many. -/
theorem mixrefBijectiveInFirstOperand : Obligations.MixrefBijectiveInFirstOperand := by
  intro v
  have hinj : Function.Injective fun u => mixRef u v := fun _ _ h =>
    mul32_left_injective_of_odd odd_fnvPrime ((BitVec.xor_left_inj v).mp h)
  exact Finite.injective_iff_bijective.mp hinj

/-- Settles O30: MIX1A is MIXREF of the XOR of its operands, which is symmetric and 0 on equal operands; MIXMOD is by
definition a MIXREF and one more multiplication. -/
theorem mixerRelations : Obligations.MixerRelations := by
  intro u v
  refine ⟨?_, ?_, ?_, rfl⟩
  · rw [mix1a, BitVec.xor_comm, mix1a]
  · rw [mix1a_eq, BitVec.xor_self, BitVec.zero_mul, BitVec.ofNat_eq_ofNat]
  · rw [mixRef, BitVec.ofNat_eq_ofNat, BitVec.xor_zero, mix1a]

/-- Settles O32, by evaluating the formulas on zeros. -/
theorem modesAreIsolated : Obligations.ModesAreIsolated := by
  have hmix : mixBy .reference 0 0 ≠ mixBy .modified 0 0 := by decide
  have hreduce : reduce4 .reference 0 0 0 0 ≠ reduce4 .modified 0 0 0 0 := by decide
  exact ⟨by decide, by decide, hmix, hreduce⟩

end Sys2Proof.Machine

/-! ## Exceptions and sessions

The operations of 60_exceptions.md R63 always answer a value, defined inputs never stop a run, and the members of a
session do not touch each other (R73). -/

namespace Sys2Proof.Machine

/-- An operation that is not reserved has a value where the fields it reads are driven (R63). -/
theorem operationOutcome_of_wellFormed {i : Instr} (hwf : i.wellFormed = true) (hformat : i.format ≠ .none)
    (m : Mode) : ∃ w, operationOutcome m i = .next w := by
  obtain hnone | ⟨-, hvalue⟩ | ⟨hnot, -⟩ := operationOutcome_cases m i
  · exact absurd hnone hformat
  · exact hvalue
  · simp [hwf] at hnot

/-- Settles O20: the operation and the request that presents it have the same outcome, a value. -/
theorem drivenOperationsAnswerWithoutError : Obligations.DrivenOperationsAnswerWithoutError := by
  intro i s hwf hformat
  obtain ⟨w, hw⟩ := operationOutcome_of_wellFormed hwf hformat s.mode
  exact ⟨w, answersWith_of_outcome hw, (transact_of_decode (decode_toRequest i)).trans hw⟩

/-- Settles O42: the port values a run uses up are among those placed, and these are all defined. -/
theorem definedInputsNeverFault : Obligations.DefinedInputsNeverFault := by
  intro k s hdef
  have hall : ∀ q ∈ s.inputs, q.isDefined s.hasReset = true := List.all_eq_true.mp hdef
  exact run_of_isDefined fun q hq => hall q (List.mem_of_mem_take hq)

/-! ### One edge of a session -/

section Session

variable {l : Session} {k : Nat}

theorem Session.stepAt_of_step {s t : State} (hs : l[k]? = some s) (h : step s = .next t) :
    l.stepAt k = l.set k t := by
  simp [Session.stepAt, hs, h]

theorem Session.stepAt_of_not_step {s : State} (hs : l[k]? = some s) (h : ∀ t, step s ≠ .next t) :
    l.stepAt k = l := by
  obtain ⟨s', t, hs', ht, -⟩ | ⟨-, hl⟩ := l.stepAt_cases k
  · obtain rfl : s = s' := Option.some.inj (hs.symm.trans hs')
    exact absurd ht (h t)
  · exact hl

theorem Session.stepAt_getElem?_self {s t : State} (hs : l[k]? = some s) (h : step s = .next t) :
    (l.stepAt k)[k]? = some t := by
  obtain ⟨hk, -⟩ := List.getElem?_eq_some_iff.mp hs
  rw [Session.stepAt_of_step hs h, List.getElem?_set_self hk]

theorem Session.stepAt_getElem?_of_ne {j : Nat} (hj : j ≠ k) : (l.stepAt k)[j]? = l[j]? := by
  obtain ⟨s, t, -, -, hl⟩ | ⟨-, hl⟩ := l.stepAt_cases k
  · rw [hl, List.getElem?_set_ne hj.symm]
  · rw [hl]

theorem Session.stepAt_length : (l.stepAt k).length = l.length := by
  obtain ⟨s, t, -, -, hl⟩ | ⟨-, hl⟩ := l.stepAt_cases k
  · rw [hl, List.length_set]
  · rw [hl]

theorem Session.sameMode_iff {m : Mode} : l.sameMode m = true ↔ ∀ s ∈ l, s.mode = m := by
  simp [Session.sameMode]

/-- The one member that may have moved has the MODE it had before (R16, R73). -/
theorem Session.stepAt_keeps_sameMode {m : Mode} (hm : l.sameMode m = true) : (l.stepAt k).sameMode m = true := by
  obtain ⟨s, t, hs, ht, hl⟩ | ⟨-, hl⟩ := l.stepAt_cases k
  · rw [Session.sameMode_iff] at hm
    rw [hl, Session.sameMode_iff]
    intro u hu
    obtain hu | rfl := List.mem_or_eq_of_mem_set hu
    · exact hm u hu
    · exact (step_keeps_mode ht).trans (hm s (List.mem_of_getElem? hs))
  · rwa [hl]

end Session

/-- Settles O50: the edge replaces its own member or nothing, and a step keeps MODE. -/
theorem sessionInstancesIndependent : Obligations.SessionInstancesIndependent := fun _ _ _ =>
  ⟨fun _ _ => Session.stepAt_getElem?_self, fun _ => Session.stepAt_of_not_step,
    fun _ => Session.stepAt_getElem?_of_ne, Session.stepAt_length, Session.stepAt_keeps_sameMode⟩

end Sys2Proof.Machine

/-! ## Reset and hazards

What one reset edge does, and that nothing presented before it answers after it (R78, R79, R80). -/

namespace Sys2Proof.Machine

/-- A reset edge goes on from every state, whatever request it presents (R19, R78). -/
theorem step_of_rst {s : State} {p : Inputs} {ps : List Inputs} (hin : s.inputs = p :: ps) (hrst : p.rst = true)
    (hlat : 0 < s.latency) : step s = .next s.dropInput.resetEdge := by
  obtain ⟨hreset, -, -⟩ := stepWithoutRequest s
  exact hreset p ps hin hrst (by simp [State.hasReset_eq, hlat])

/-- Settles O45: the edge leaves the cleared stages and writes neither MODE nor the number of stages. -/
theorem resetEdgeClearsValidBits : Obligations.ResetEdgeClearsValidBits := by
  intro s p ps hin hrst hlat
  have h := step_of_rst hin hrst hlat
  exact ⟨_, h, fun x hx => clearedStages_empty x hx, step_keeps_mode h, step_keeps_latency h, by simp [hin]⟩

/-- Settles O46: the reset edge samples the last stage and leaves every stage empty; the `k`-th edge after it samples
what the reset edge left in stage `LATENCY - k`. -/
theorem resetEdgeDiscardsRequestsInFlight : Obligations.ResetEdgeDiscardsRequestsInFlight := by
  intro s p ps hin hrst hlat
  refine ⟨fun k t hk hle h => ?_, fun x t hlast hv h => ?_⟩
  · obtain ⟨u, hu, hrun⟩ := run_succ_next.mp h
    obtain ⟨j, rfl⟩ : ∃ j, k = j + 1 := Nat.exists_eq_add_of_le' hk
    have hempty := step_emptyAt_of_rst hin hrst hlat hu (s.latency - (j + 1))
    have hplace : s.latency - (j + 1) + (j + 1) = u.latency := by rw [step_keeps_latency hu, Nat.sub_add_cancel hle]
    exact run_samples_nothing hplace (.inl hempty) hrun
  · simp [step_samples_last_stage h hlast, RspPort.ofStage, hv]

end Sys2Proof.Machine
